-- ==== Sys2Proof/Word.lean ====
section
/-! DEFINITION. The words of the route ring and of the coil chains. -/

namespace Sys2Proof

/-- One word of a ring frame (R170). -/
abbrev Word := BitVec 32

/-- One byte field of a frame header (section 10.7). -/
abbrev Byte := BitVec 8

/-- One value for each of the 128 positions of a coil chain; bit p is position p (R83). -/
abbrev Image := BitVec 128

end Sys2Proof
end

