-- ==== Sys2Proof/Syntax.lean ====
section
/-! DEFINITION. The commands of the 7164: one constructor for each row of spec/opcode_table.json.

A command that is a frame carries the fields the row leaves open. The kind, the operation, the space or the action that
makes the frame a frame of its row is the constructor itself (log 20). The CRC of such a frame agrees: a frame whose CRC
disagrees is FRAME_CRC_FAIL. -/

namespace Sys2Proof

/-- The fields of a frame other than its kind, its argument word and the low half of its CRC word (section 10.7). -/
structure Envelope where
  /-- Destination: a ring address, or 255 for broadcast (R172). -/
  dest : Byte
  tag : Byte
  /-- The payload length field, which may disagree with the words carried (R175). -/
  length : Byte
  status : Byte
  reason : Byte
  accepts : Byte
  filled : Byte
  refusals : BitVec 16
  /-- Bit 0 is CORRUPT and bit 1 is ADDRESS_CLASH: bits 8 and 9 of header word 3. -/
  marks : Byte
  spare : Byte
  payload : List Word
  /-- The high half of the last word, carried as sent (R171). -/
  crcHigh : BitVec 16
deriving DecidableEq, Repr

/-- A whole frame of five words or more, with the CRC it carries (R170). -/
structure Frame where
  kind : Byte
  arg : Word
  env : Envelope
  crc : BitVec 16
deriving DecidableEq, Repr

/-- The argument word of a STEP without its action (section 10.7): the unnamed bits 19-17, 23-22 and 31-26 are kept. -/
structure StepArg where
  routeSet : Byte
  /-- Bit s is site s; bit 8 is COMMON. -/
  owners : BitVec 9
  mode : BitVec 2
  gap19 : BitVec 3
  gap23 : BitVec 2
  gap31 : BitVec 6
deriving DecidableEq, Repr

/-- The argument word of a WRITE without its space. -/
structure WriteArg where
  start : BitVec 16
  gap : Byte
deriving DecidableEq, Repr

/-- The argument word of a READ without its space. -/
structure ReadArg where
  start : BitVec 16
  /-- CONTINUE: take the start index from the read cursor (R180). -/
  resume : Bool
  gap : BitVec 7
deriving DecidableEq, Repr

/-- The argument word of a CONTROL without its operation. -/
structure ControlArg where
  operand : BitVec 16
  gap : Byte
deriving DecidableEq, Repr

/-- A command: a row of the table of operations and events. -/
inductive Instr where
  | stepCheck (e : Envelope) (a : StepArg)
  | stepStage (e : Envelope) (a : StepArg)
  | stepApply (e : Envelope) (a : StepArg)
  | resolutionComplete
  | writeRelayMap (e : Envelope) (a : WriteArg)
  | writeClass (e : Envelope) (a : WriteArg)
  | writePorts (e : Envelope) (a : WriteArg)
  | writeSiteEnable (e : Envelope) (a : WriteArg)
  | writePinMap (e : Envelope) (a : WriteArg)
  | writePortMap (e : Envelope) (a : WriteArg)
  | writeRouteDir (e : Envelope) (a : WriteArg)
  | writeEntries (e : Envelope) (a : WriteArg)
  | writeWear (e : Envelope) (a : WriteArg)
  | writeConfig (e : Envelope) (a : WriteArg)
  /-- A WRITE whose space code names no space or a read-only one. -/
  | write (e : Envelope) (a : WriteArg) (space : Byte)
  | read (e : Envelope) (a : ReadArg) (space : Byte)
  | readNotices (e : Envelope) (a : ReadArg)
  | enterRun (e : Envelope) (a : ControlArg)
  | enterConfigure (e : Envelope) (a : ControlArg)
  | setGate (e : Envelope) (a : ControlArg)
  | abort (e : Envelope) (a : ControlArg)
  | resume (e : Envelope) (a : ControlArg)
  | rollback (e : Envelope) (a : ControlArg)
  | safeOpen (e : Envelope) (a : ControlArg)
  | discardStaged (e : Envelope) (a : ControlArg)
  | ackAlert (e : Envelope) (a : ControlArg)
  | softReset (e : Envelope) (a : ControlArg)
  /-- A CONTROL whose operation code names none of the ten operations. -/
  | controlBadOperation (e : Envelope) (a : ControlArg) (operation : Byte)
  | poll (e : Envelope) (arg : Word)
  | frameCrcFail (f : Frame)
  | shortFrame (words : List Word)
  | frameNotForThisController (f : Frame)
  | frameDuringReset (words : List Word)
  | trigEdge
  | qackHigh
  | guardTimeout
  | shiftComplete (chain : Fin 8)
  | writeEcho (chain : Fin 8) (echo : Image)
  /-- `made` holds 1 at each position whose contacts are MADE and 0 where they are BROKEN. -/
  | senseEcho (chain : Fin 8) (echo made : Image)
  | noEcho (chain : Fin 8)
  | staleEcho (chain : Fin 8) (echo : Image)
  | timedWaitEnd
  | senseIntervalEnd (chain : Fin 8)
  | senseDeadline
  | powerOn
  | rstnLow
  | rstnHigh
  | symbolLockLost
  | symbolLockReturn
  | linkLoss
  /-- `straps` are the levels of ADDR0-ADDR3 at that moment. -/
  | resetEnd (straps : BitVec 4)
  | stepBadAction (e : Envelope) (a : StepArg)
deriving DecidableEq, Repr

end Sys2Proof
end

