-- ==== Sys2Proof/Config.lean ====
section
/-! DEFINITION. What the spec leaves open: constants without a body, so that no proof sees what they are. -/

namespace Sys2Proof

/-- FREE VALUE (log 6). Whether relay `a` is confirmed before relay `b` where the two are confirmed in one event; the
first argument is the number of free values drawn before. R92 lets relays on different chains be confirmed in any
order among themselves and gives no order within a chain. -/
opaque Config.confirmBefore (drawn a b : Nat) : Bool

/-- FREE VALUE (log 7). Whether a power-on reset during which RSTN goes low is recorded as an RSTN reset. R193 and
R194 give the record of each source and not of this overlap. -/
opaque Config.rstnDuringPowerOn (drawn : Nat) : Bool

/-- FREE VALUE (log 12). Whether an event of another block falls right before a READ fills the word at index `i`; the
first argument is the number of free values drawn before. R181 says only between which words an event may fall, and R116
lets the whole READ fall between two confirmations of one wave. -/
opaque Config.readPauses (drawn i : Nat) : Bool

end Sys2Proof
end

