-- ==== Sys2Proof/Machine/Frame.lean ====
section
/-! DEFINITION. Frames as words: the header layout of section 10.7, the argument words, and the CRC of R171. -/

namespace Sys2Proof.Machine

/-- The CRC register after one more bit: generator x^16 + x^12 + x^5 + 1 (R171). -/
def crcBit (c : BitVec 16) (b : Bool) : BitVec 16 :=
  if c.msb = b then c <<< 1 else (c <<< 1) ^^^ 0x1021#16

/-- The CRC register after one more word, taken from its most significant bit to its least (R171). -/
def crcWord (c : BitVec 16) (w : Word) : BitVec 16 :=
  (List.range 32).foldl (fun r k => crcBit r (w.getLsbD (31 - k))) c

/-- The CRC of the words before the CRC word; the register starts with all ones (R171). -/
def crc16 (ws : List Word) : BitVec 16 :=
  ws.foldl crcWord 0xFFFF#16

/-- The words of a frame before its CRC word: four header words and the payload (section 10.7). -/
def bodyWords (kind : Byte) (arg : Word) (e : Envelope) : List Word :=
  [kind ++ e.dest ++ e.tag ++ e.length, arg, e.status ++ e.reason ++ e.accepts ++ e.filled,
    e.refusals ++ e.marks ++ e.spare] ++ e.payload

/-- The words of a frame whose CRC agrees. -/
def sealedWords (kind : Byte) (arg : Word) (e : Envelope) : List Word :=
  bodyWords kind arg e ++ [e.crcHigh ++ crc16 (bodyWords kind arg e)]

/-- The words of a frame as it carries them (R170). -/
def frameWords (f : Frame) : List Word :=
  bodyWords f.kind f.arg f.env ++ [f.env.crcHigh ++ f.crc]

/-- Whether the CRC a frame carries agrees with its words (R171). -/
def crcAgrees (f : Frame) : Bool := f.crc = crc16 (bodyWords f.kind f.arg f.env)

/-- Whether a frame arrives with the CORRUPT mark set (R171). -/
def isCorrupt (e : Envelope) : Bool := e.marks.getLsbD 0

/-- The frame kinds of section 10.7; any other code names no kind. -/
def kindStep : Byte := 1
/-- Kind WRITE. -/
def kindWrite : Byte := 2
/-- Kind READ. -/
def kindRead : Byte := 3
/-- Kind CONTROL. -/
def kindControl : Byte := 4
/-- Kind POLL. -/
def kindPoll : Byte := 5

/-- The argument word of a STEP with the action code `action` (section 10.7). -/
def stepArgWord (a : StepArg) (action : BitVec 2) : Word :=
  a.gap31 ++ action ++ a.gap23 ++ a.mode ++ a.gap19 ++ a.owners ++ a.routeSet

/-- The argument word of a WRITE. -/
def writeArgWord (a : WriteArg) (space : Byte) : Word := space ++ a.gap ++ a.start

/-- The argument word of a READ. -/
def readArgWord (a : ReadArg) (space : Byte) : Word := space ++ a.gap ++ BitVec.ofBool a.resume ++ a.start

/-- The argument word of a CONTROL. -/
def controlArgWord (a : ControlArg) (operation : Byte) : Word := operation ++ a.gap ++ a.operand

end Sys2Proof.Machine
end

