-- ==== Sys2Proof/Machine/Table.lean ====
section
/-! DEFINITION. The sparse tables that hold the 7164's indexed tables: pairs of an index and an entry, in one canonical
form. An index that is not listed holds the value `d`, which each table's own text gives. -/

namespace Sys2Proof.Machine

/-- A table of entries by index. -/
abbrev Table (α : Type) := List (Nat × α)

/-- The entry at index `i`, where an unlisted index holds `d`. -/
def Table.get {α : Type} (d : α) : Table α → Nat → α
  | [], _ => d
  | (k, v) :: t, i => if i = k then v else Table.get d t i

/-- `v` listed at index `i`, before the first listed index above `i`. -/
def Table.insertAt {α : Type} (i : Nat) (v : α) : Table α → Table α
  | [] => [(i, v)]
  | (k, w) :: t => if i < k then (i, v) :: (k, w) :: t else (k, w) :: Table.insertAt i v t

/-- The table with `v` at index `i`. Writing the value an unlisted index holds takes the entry out. -/
def Table.put {α : Type} [DecidableEq α] (d : α) (t : Table α) (i : Nat) (v : α) : Table α :=
  let others := t.filter (fun e => e.1 ≠ i)
  if v = d then others else Table.insertAt i v others

/-- The listed indices, in the table's order. -/
def Table.indices {α : Type} (t : Table α) : List Nat := t.map Prod.fst

/-- The canonical form: indices strictly rising, and no entry equal to the value of an unlisted index. -/
abbrev Table.wf {α : Type} [DecidableEq α] (d : α) (t : Table α) : Prop :=
  t.Pairwise (fun a b => a.1 < b.1) ∧ ∀ e ∈ t, e.2 ≠ d

end Sys2Proof.Machine
end

