-- ==== Sys2Proof/Machine/State.lean ====
section
/-! DEFINITION. The state of the 7164, block by block as the manual lists its blocks, and its value after reset. -/

namespace Sys2Proof.Machine

/-! ### Why a step stops -/

/-- Faults that stop the machine. The spec gives none: CHAIN, CONTACT and GUARD_TIMEOUT faults are recorded in the fault
record and suspend a transition or lock the part out (R123 to R141). So there is no constructor. -/
inductive Fault where
deriving DecidableEq, Repr

/-- Refusals of the model. No meaning raises one. -/
inductive Refusal where
  /-- Raised by an arm of `exec` whose command has no meaning yet. Safe: the machine stops. -/
  | notModelled (mnemonic : String)
deriving DecidableEq, Repr

/-! ### Topology tables (chapter 1, R66) -/

/-- A relay map entry (R3). -/
structure RelayEntry where
  present : Bool
  a : Byte
  b : Byte
  cls : BitVec 4
deriving DecidableEq, Repr

/-- An absent relay position as a hard reset leaves it (R18). -/
def RelayEntry.absent : RelayEntry := { present := false, a := 0, b := 0, cls := 0 }

/-- How a relay's change is confirmed (R66). -/
inductive ConfirmMode where
  | timed | sensed
deriving DecidableEq, Repr

/-- A class table record (R66). -/
structure ClassEntry where
  operate : BitVec 16
  release : BitVec 16
  settle : BitVec 16
  senseTimeout : BitVec 16
  ratedLife : BitVec 16
  derate : Byte
  mode : ConfirmMode
  warn : Byte
  retire : Byte
deriving DecidableEq, Repr

/-- A class as a hard reset leaves it (R67). -/
def ClassEntry.initial : ClassEntry :=
  { operate := 0, release := 0, settle := 0, senseTimeout := 0, ratedLife := 1, derate := 0, mode := .timed,
    warn := 1, retire := 1 }

/-- The role of a port node (R8). -/
inductive Role where
  | passive | sense | force
deriving DecidableEq, Repr

/-- A port table entry (R8). -/
structure PortEntry where
  role : Role
  guarded : Bool
deriving DecidableEq, Repr

/-- A port as a hard reset leaves it (R18). -/
def PortEntry.initial : PortEntry := { role := .passive, guarded := false }

/-- Outcomes of a validation (R17). -/
inductive ValidationOutcome where
  | none | ok | badEndpoints | badClass | classOrder | badGuard | pinAlias
deriving DecidableEq, Repr

/-- The VALIDATION record (R17). -/
structure ValidationRecord where
  outcome : ValidationOutcome
  index : Nat
  related : Nat
deriving DecidableEq, Repr

/-- The topology tables and the VALIDATION record (R3 to R18). A pin map entry is a pin line or UNMAPPED (`none`); a
port map entry is the i of port node 80+i, or UNMAPPED. -/
structure Topology where
  relayMap : Table RelayEntry
  classes : Table ClassEntry
  ports : Table PortEntry
  sites : Table Bool
  pinMap : Table (Option (BitVec 6))
  portMap : Table (Option (BitVec 5))
  validation : ValidationRecord
deriving DecidableEq, Repr

/-! ### Route store (chapter 2) -/

/-- A route directory entry (R19). -/
structure DirEntry where
  defined : Bool
  first : BitVec 11
  count : BitVec 7
  stop : Bool
deriving DecidableEq, Repr

/-- A directory entry as a hard reset leaves it (R35). -/
def DirEntry.initial : DirEntry := { defined := false, first := 0, count := 0, stop := false }

/-- The trunk field of a PATH entry (R22). -/
inductive Trunk where
  | fixed (t : BitVec 4)
  | auto
deriving DecidableEq, Repr

/-- A pool entry (R22). -/
inductive Entry where
  | path (pin : BitVec 5) (port : BitVec 4) (trunk : Trunk)
  | direct (relay : BitVec 10)
deriving DecidableEq, Repr

/-- The pool entry of word 0, which a hard reset leaves everywhere (R35). -/
def Entry.initial : Entry := .path 0 0 (.fixed 0)

/-- The route store (R19, R22). -/
structure RouteStore where
  directory : Table DirEntry
  pool : Table Entry
deriving DecidableEq, Repr

/-- A holder of relays (R26). -/
inductive Owner where
  | site (s : Fin 8)
  | common
deriving DecidableEq, Repr

/-- An owner, or NONE, for each relay position: a holding table, a base owner map or a target (R27, R101). -/
abbrev Holdings := Table (Option Owner)

/-! ### Resolver (chapter 3) -/

/-- Step modes (R30 to R32). -/
inductive StepMode where
  | replace | add | clear
deriving DecidableEq, Repr

/-- Step actions (R36). -/
inductive Action where
  | check | stage | apply
deriving DecidableEq, Repr

/-- The set in use: a directory entry and a run of pool entries, which may be empty (R34). -/
structure SetInUse where
  dir : Nat
  first : Nat
  count : Nat
deriving DecidableEq, Repr

/-- The resolution context held while the resolver is RESOLVING (R36). -/
structure Resolution where
  routeSet : Byte
  requested : BitVec 9
  mode : StepMode
  action : Action
  base : Holdings
  baseNumber : Word
  effective : BitVec 9
  waveLimit : Nat
  /-- Whether the directory entry passed the test of R20 at acceptance; yes for CLEAR. -/
  usable : Bool
  /-- The STOP mark copied at acceptance; no for CLEAR (R21, R55). -/
  stop : Bool
  inUse : Option SetInUse
  /-- The target under construction: the starting target from acceptance on (R30 to R32, R36; log 13). -/
  target : Holdings
deriving DecidableEq, Repr

/-- Outcomes of a resolution (R56). -/
inductive ResolveOutcome where
  | none | ok | badSet | unmapped | unroutable | noTrunk | retired | overlap | short | crossSite | cancelled
deriving DecidableEq, Repr

/-- The resolution result record (R56). -/
structure ResultRecord where
  outcome : ResolveOutcome
  action : Action
  mode : StepMode
  routeSet : Byte
  effective : BitVec 9
  baseNumber : Word
  owner : Option Owner
  entryIndex : Option Nat
  node1 : Option Nat
  node2 : Option Nat
  relay : Option Nat
  holder : Option Owner
  net : Option Nat
  openCount : Nat
  closeCount : Nat
  openWaves : Nat
  closeWaves : Nat
  reassignedCount : Nat
  duration : Nat
  guarded : BitVec 24
  replaced : Bool
deriving DecidableEq, Repr

/-- The result record before any resolution has ended: NONE, every field absent or 0 (R57). -/
def ResultRecord.initial : ResultRecord :=
  { outcome := .none, action := .check, mode := .replace, routeSet := 0, effective := 0, baseNumber := 0,
    owner := none, entryIndex := none, node1 := none, node2 := none, relay := none, holder := none, net := none,
    openCount := 0, closeCount := 0, openWaves := 0, closeWaves := 0, reassignedCount := 0, duration := 0,
    guarded := 0, replaced := false }

/-- The resolver: IDLE with no context, RESOLVING with one (R36). -/
structure Resolver where
  context : Option Resolution
  result : ResultRecord
deriving DecidableEq, Repr

/-! ### Staging slot and trigger gate (chapter 8) -/

/-- A plan (R55). Bit k of `guarded` is port node 80+k. -/
structure Plan where
  routeSet : Byte
  action : Action
  stop : Bool
  baseNumber : Word
  opens : List Nat
  closes : List (Nat × Owner)
  reassigned : List (Nat × Owner)
  waveLimit : Nat
  openWaves : Nat
  closeWaves : Nat
  guarded : BitVec 24
  duration : Nat
  bound : Bool
deriving DecidableEq, Repr

/-- Gate modes (R152). -/
inductive GateMode where
  | normal | single | free | halt
deriving DecidableEq, Repr

/-- Halt reasons (R152). -/
inductive HaltReason where
  | none | command | stopMark | singleDone | fault
deriving DecidableEq, Repr

/-- The staging slot, the trigger latch and the gate (R142, R148, R152). -/
structure Gate where
  slot : Option Plan
  latch : Bool
  mode : GateMode
  reason : HaltReason
deriving DecidableEq, Repr

/-! ### Transition engine (chapters 6 and 7) -/

/-- Engine states (R96). -/
inductive EnginePhase where
  | idle | guarding | opening | closing | suspended | lockout
deriving DecidableEq, Repr

/-- Transition kinds (R97). -/
inductive TransitionKind where
  | stepped | rollback | safeOpen
deriving DecidableEq, Repr

/-- The transition record (R97). -/
structure Transition where
  kind : TransitionKind
  number : Word
  waveLimit : Nat
  guarded : BitVec 24
  stop : Bool
  hot : Bool
deriving DecidableEq, Repr

/-- What the engine knows of a relay's contacts (R99). -/
inductive Contact where
  | opened | closed | unknown
deriving DecidableEq, Repr

/-- Phases named in faults and suspensions (R124, R130). -/
inductive FaultPhase where
  | guard | opening | closing
deriving DecidableEq, Repr

/-- Fault kinds (R123). -/
inductive FaultKind where
  | chain | contact | guardTimeout
deriving DecidableEq, Repr

/-- The description of the first fault in the fault record (R124). -/
structure FaultEntry where
  kind : FaultKind
  phase : FaultPhase
  transition : TransitionKind
  number : Word
  relay : Option Nat
  chain : Option (Fin 8)
  count : Nat
deriving DecidableEq, Repr

/-- The fault record: kind NONE when `first` is absent (R124). -/
structure FaultRecord where
  first : Option FaultEntry
  additional : Nat
deriving DecidableEq, Repr

/-- The clear fault record (R124). -/
def FaultRecord.clear : FaultRecord := { first := none, additional := 0 }

/-- Suspension reasons (R130). -/
inductive SuspendReason where
  | none | fault | aborted
deriving DecidableEq, Repr

/-- Guard policies (R105). -/
inductive GuardPolicy where
  | abort | proceed
deriving DecidableEq, Repr

/-- The timeout and policy the engine keeps for one guard wait (R104). -/
structure GuardWait where
  timeout : Nat
  policy : GuardPolicy
deriving DecidableEq, Repr

/-- The transition engine (R96 to R101, R124, R129, R130). -/
structure Engine where
  phase : EnginePhase
  transition : Option Transition
  current : Word
  lastCompleted : Word
  holdings : Holdings
  baseMap : Holdings
  actual : Table Contact
  pendingOpen : List Nat
  pendingClose : List Nat
  fault : FaultRecord
  suspension : SuspendReason
  suspendedPhase : Option FaultPhase
  abortNoted : Bool
  guardWait : Option GuardWait
  /-- Bit k is QGk, set while asserted (R104). -/
  quiet : BitVec 24
deriving DecidableEq, Repr

/-- The engine as every reset leaves it (R120). -/
def Engine.initial : Engine :=
  { phase := .idle, transition := none, current := 0, lastCompleted := 0, holdings := [], baseMap := [],
    actual := [], pendingOpen := [], pendingClose := [], fault := .clear, suspension := .none,
    suspendedPhase := none, abortNoted := false, guardWait := none, quiet := 0 }

/-! ### Coil chain unit (chapter 5) -/

/-- The stage of an attempt: the image is being shifted, or the echo is awaited (R85). -/
inductive AttemptStage where
  | shifting | echoWait
deriving DecidableEq, Repr

/-- Exchange states of a chain (R86); `n` is the attempt. -/
inductive Exchange where
  | idle
  | writing (n : Nat) (stage : AttemptStage)
  | latched
  | sensing (n : Nat) (stage : AttemptStage)
  | senseInterval
  | done
  | failed
deriving DecidableEq, Repr

/-- Status of a relay of a wave (R84). -/
inductive RelayStatus where
  | writing | latched | sensing | confirmed | chainFailed | contactFailed
deriving DecidableEq, Repr

/-- A relay of a wave, with what the unit reads from its class (R84). -/
structure WaveRelay where
  relay : Nat
  mode : ConfirmMode
  senseTimeout : Nat
  status : RelayStatus
  /-- Whether it has had the one read that a sense timeout of 0 allows, and was not confirmed by it (R91; log 15). -/
  spent : Bool
deriving DecidableEq, Repr

/-- Where a wave stands: its write exchanges, its timed wait, or its sense period with the deadline in microseconds from
the end of the timed wait and whether it has been reached (R88 to R91). -/
inductive WaveStage where
  | writing
  | timedWait
  | sensing (deadline : Nat) (reached : Bool)
deriving DecidableEq, Repr

/-- The wave record (R84, R108). -/
structure Wave where
  /-- Whether it is a close wave: the new state of its relays is 1. -/
  close : Bool
  relays : List WaveRelay
  time : Nat
  stage : WaveStage
  /-- Whether a failure has been reported in this wave (R112). -/
  failed : Bool
deriving DecidableEq, Repr

/-- The coil chain unit (R83, R84, R86, R93). -/
structure CoilUnit where
  images : Table Image
  exchanges : Table Exchange
  wave : Option Wave
  coilEnable : Bool
deriving DecidableEq, Repr

/-! ### Wear unit (chapter 9) -/

/-- Health of a relay (R158). -/
inductive Health where
  | good | suspect | retired
deriving DecidableEq, Repr

/-- A wear record (R158). -/
structure WearRecord where
  count : Word
  health : Health
deriving DecidableEq, Repr

/-- A wear record as a hard reset leaves it (R168). -/
def WearRecord.initial : WearRecord := { count := 0, health := .good }

/-- Kinds of notice (R80). -/
inductive NoticeKind where
  | warn | retire
deriving DecidableEq, Repr

/-- A notice record (R165). -/
structure Notice where
  relay : Nat
  kind : NoticeKind
  count : Word
deriving DecidableEq, Repr

/-- The wear records and the notice list, oldest first (R158, R165). -/
structure WearUnit where
  records : Table WearRecord
  notices : List Notice
deriving DecidableEq, Repr

/-! ### Alert unit, modes and resets (chapter 11) -/

/-- The alert unit: bit n is the cause of that number in section 10.7 (R189). -/
structure AlertUnit where
  pending : BitVec 14
deriving DecidableEq, Repr

/-- Controller modes (R185). -/
inductive Mode where
  | configure | run | lockedOut
deriving DecidableEq, Repr

/-- The CONFIG parameters (R188). A set bit of `mask` masks the cause (log 18). -/
structure Params where
  waveLimit : Nat
  guardTimeout : Nat
  policy : GuardPolicy
  hotWeight : Nat
  arbitration : BitVec 4
  mask : BitVec 14
deriving DecidableEq, Repr

/-- The CONFIG parameters as a hard reset sets them, with the ring address sampled at that reset (R188). -/
def Params.initial (address : BitVec 4) : Params :=
  { waveLimit := 16, guardTimeout := 2000, policy := .abort, hotWeight := 10, arbitration := address, mask := 0 }

/-- Reset sources (R193). -/
inductive ResetSource where
  | powerOn | rstn | softFrame | linkLoss
deriving DecidableEq, Repr

/-- A reset in progress: its source, and whether the link-loss timer expired while it was in progress (R193). -/
structure ResetRun where
  source : ResetSource
  linkLost : Bool
deriving DecidableEq, Repr

/-- The reset record (R194). -/
structure ResetRecord where
  powerOn : Bool
  rstn : Bool
  softFrame : Bool
  linkLoss : Bool
deriving DecidableEq, Repr

/-- The reset record with every flag clear (R194). -/
def ResetRecord.clear : ResetRecord := { powerOn := false, rstn := false, softFrame := false, linkLoss := false }

/-- Mode and reset control (R185, R188, R193, R194). -/
structure Control where
  mode : Mode
  params : Params
  resetting : Option ResetRun
  resetRecord : ResetRecord
  rstnLow : Bool
  lockLost : Bool
  linkTimer : Bool
deriving DecidableEq, Repr

/-! ### Ring port (chapter 10) -/

/-- The address spaces, in the order of R179. -/
inductive Space where
  | relayMap | cls | ports | siteEnable | pinMap | portMap | routeDir | entries | wear | config
  | status | result | fault | holdings | actual | notices | validation
deriving DecidableEq, Repr

/-- A read cursor that is not empty (R180). -/
structure Cursor where
  space : Space
  next : Nat
deriving DecidableEq, Repr

/-- A READ whose payload is still being filled: the frame as it arrived, its space and start index, how many words it
fills in all, and the words filled so far (R181; log 12). -/
structure Reading where
  env : Envelope
  arg : Word
  space : Space
  start : Nat
  goal : Nat
  filled : List Word
deriving DecidableEq, Repr

/-- The ring port: the ring address (R172), the read cursor (R180), the READ being filled (R181) and the frames sent on
RING_OUT, oldest first (R169). -/
structure RingPort where
  address : BitVec 4
  cursor : Option Cursor
  reading : Option Reading
  sent : List (List Word)
deriving DecidableEq, Repr

/-- The 7164: its ten blocks, the queue of commands that wait, first in first out, and the number of free values drawn
(logs 6, 7, 12). -/
structure State where
  control : Control
  ring : RingPort
  topology : Topology
  store : RouteStore
  resolver : Resolver
  gate : Gate
  engine : Engine
  coil : CoilUnit
  wear : WearUnit
  alerts : AlertUnit
  pending : List Instr
  free : Nat
deriving DecidableEq, Repr

/-- The topology tables after a hard reset (R18). -/
def Topology.initial : Topology :=
  { relayMap := [], classes := [], ports := [], sites := [], pinMap := [], portMap := [],
    validation := { outcome := .none, index := 0, related := 0 } }

/-- The route store after a hard reset (R35). -/
def RouteStore.initial : RouteStore := { directory := [], pool := [] }

/-- The resolver after every reset (R36, R57). -/
def Resolver.initial : Resolver := { context := none, result := .initial }

/-- The gate after every reset (R142, R148, R152). -/
def Gate.initial : Gate := { slot := none, latch := false, mode := .normal, reason := .none }

/-- The wear unit after a hard reset (R168). -/
def WearUnit.initial : WearUnit := { records := [], notices := [] }

/-- The machine right after a power-on reset has ended (R194): RESET is pending, the reset record holds POWER_ON and
COILEN is high. DEDUCED (log 1). The ring address is 0 and the lines are quiet: DESIGN CHOICE (logs 2, 3). -/
def State.reset : State :=
  { control :=
      { mode := .configure, params := .initial 0, resetting := none,
        resetRecord := { powerOn := true, rstn := false, softFrame := false, linkLoss := false },
        rstnLow := false, lockLost := false, linkTimer := false },
    ring := { address := 0, cursor := none, reading := none, sent := [] },
    topology := .initial,
    store := .initial,
    resolver := .initial,
    gate := .initial,
    engine := .initial,
    coil := { images := [], exchanges := [], wave := none, coilEnable := true },
    wear := .initial,
    alerts := { pending := 1#14 },
    pending := [],
    free := 0 }

end Sys2Proof.Machine
end

