-- ==== Sys2Proof/Machine/Flags.lean ====
section
/-! DEFINITION. The alert causes and the READY and ALERT lines (R115, R189, R191). -/

namespace Sys2Proof.Machine

/-- The alert causes (R189). -/
inductive Cause where
  | reset | done | resolved | halted | trigEmpty | linkCrc | wear | noticeFull | stale | trigOverrun
  | guardBypass | resolveFail | suspend | lockout
deriving DecidableEq, Repr

/-- The cause bit of section 10.7. -/
def Cause.bit : Cause → Nat
  | .reset => 0
  | .done => 1
  | .resolved => 2
  | .halted => 3
  | .trigEmpty => 4
  | .linkCrc => 5
  | .wear => 6
  | .noticeFull => 7
  | .stale => 8
  | .trigOverrun => 9
  | .guardBypass => 10
  | .resolveFail => 11
  | .suspend => 12
  | .lockout => 13

/-- The level of a cause (R189). -/
def Cause.level : Cause → Nat
  | .lockout => 7
  | .suspend => 6
  | .resolveFail => 5
  | .stale | .trigOverrun | .guardBypass => 4
  | .wear | .noticeFull => 3
  | .halted | .trigEmpty | .linkCrc => 2
  | .done | .resolved | .reset => 1

/-- Every cause, in the order of the cause bits. -/
def allCauses : List Cause :=
  [.reset, .done, .resolved, .halted, .trigEmpty, .linkCrc, .wear, .noticeFull, .stale, .trigOverrun, .guardBypass,
    .resolveFail, .suspend, .lockout]

/-- A set of causes with one more in it. -/
def raised (causes : BitVec 14) (c : Cause) : BitVec 14 := causes ||| (1#14 <<< c.bit)

/-- The cause `c` made pending (R189). -/
def State.raise (s : State) (c : Cause) : State := { s with alerts.pending := raised s.alerts.pending c }

/-- Whether the cause `c` is pending (R189). -/
def State.isRaised (s : State) (c : Cause) : Bool := s.alerts.pending.getLsbD c.bit

/-- Whether the cause `c` is pending and not masked (R191, R192). -/
def State.calls (s : State) (c : Cause) : Bool := s.isRaised c && !s.control.params.mask.getLsbD c.bit

/-- Whether an APPLY resolution is in flight (R60). -/
def State.applyInFlight (s : State) : Bool :=
  match s.resolver.context with
  | some ctx => decide (ctx.action = .apply)
  | none => false

/-- Whether this controller releases READY (R115). -/
def State.readyReleased (s : State) : Bool :=
  match s.control.mode with
  | .configure => true
  | .run => decide (s.engine.phase = .idle) && !s.gate.latch && !s.applyInFlight
  | .lockedOut => false

/-- Whether this controller pulls ALERT low (R191). -/
def State.alertLow (s : State) : Bool :=
  decide (s.control.mode = .lockedOut) || decide (s.alerts.pending &&& ~~~s.control.params.mask ≠ 0)

/-- The level of this controller's claim in a POLL: the highest level among its causes pending and not masked, or 0 for
no claim (R192). -/
def State.claimLevel (s : State) : Nat :=
  (allCauses.filter (fun c => s.calls c)).foldl (fun m c => max m c.level) 0

end Sys2Proof.Machine
end

