-- ==== Sys2Proof/Machine/Operands.lean ====
section
/-! DEFINITION. The word layouts of the address spaces and the code values of section 10.7. Each word is written as its
fields from bit 31 down; a 0 of some width is the bits that are not named. -/

namespace Sys2Proof.Machine

/-! ### Codes -/

/-- The space a space code names (section 10.7). -/
def Space.ofCode (c : Byte) : Option Space :=
  match c.toNat with
  | 0 => some .relayMap
  | 1 => some .cls
  | 2 => some .ports
  | 3 => some .siteEnable
  | 4 => some .pinMap
  | 5 => some .portMap
  | 6 => some .routeDir
  | 7 => some .entries
  | 8 => some .wear
  | 9 => some .config
  | 10 => some .status
  | 11 => some .result
  | 12 => some .fault
  | 13 => some .holdings
  | 14 => some .actual
  | 15 => some .notices
  | 16 => some .validation
  | _ => none

/-- The code of a space (section 10.7). -/
def Space.code : Space → Byte
  | .relayMap => 0
  | .cls => 1
  | .ports => 2
  | .siteEnable => 3
  | .pinMap => 4
  | .portMap => 5
  | .routeDir => 6
  | .entries => 7
  | .wear => 8
  | .config => 9
  | .status => 10
  | .result => 11
  | .fault => 12
  | .holdings => 13
  | .actual => 14
  | .notices => 15
  | .validation => 16

/-- The number of words of a space; NOTICES has no index range (R179). -/
def Space.size : Space → Nat
  | .relayMap => 1024
  | .cls => 64
  | .ports => 32
  | .siteEnable => 8
  | .pinMap => 256
  | .portMap => 128
  | .routeDir => 256
  | .entries => 2048
  | .wear => 2048
  | .config => 6
  | .status => 9
  | .result => 9
  | .fault => 3
  | .holdings => 1024
  | .actual => 1024
  | .notices => 0
  | .validation => 1

/-- The bit of an owner in an owner mask: site s at bit s, COMMON at bit 8 (section 10.7). -/
def Owner.bit : Owner → Nat
  | .site s => s.val
  | .common => 8

/-- The owner code where NONE may stand (section 10.7). -/
def ownerCode : Option Owner → BitVec 4
  | none => 0
  | some (.site s) => BitVec.ofNat 4 (s.val + 1)
  | some .common => 9

/-- The owner code of a field that may be absent (section 10.7). -/
def ownerField : Option Owner → BitVec 4
  | none => 15
  | some o => ownerCode (some o)

/-- A field that may be absent: all ones in its width when absent (section 10.7). -/
def absentField (n : Nat) : Option Nat → BitVec n
  | none => BitVec.allOnes n
  | some v => BitVec.ofNat n v

/-! ### RELAY_MAP, CLASS, PORTS, SITE_ENABLE, PIN_MAP, PORT_MAP -/

/-- The entry a RELAY_MAP word holds. -/
def RelayEntry.ofWord (w : Word) : RelayEntry :=
  { present := w.getLsbD 24, a := w.extractLsb' 0 8, b := w.extractLsb' 8 8, cls := w.extractLsb' 16 4 }

/-- The RELAY_MAP word of an entry. -/
def RelayEntry.word (e : RelayEntry) : Word :=
  0#7 ++ BitVec.ofBool e.present ++ 0#4 ++ e.cls ++ e.b ++ e.a

/-- A class record after the word `k` of its four is written, field by field, with the clamping of R67. -/
def ClassEntry.written (c : ClassEntry) (k : Nat) (w : Word) : ClassEntry :=
  let low := w.extractLsb' 0 16
  let high := w.extractLsb' 16 16
  match k with
  | 0 => { c with operate := low, release := high }
  | 1 => { c with settle := low, senseTimeout := high }
  | 2 =>
    { c with
      ratedLife := if low = 0 then 1 else low,
      derate := if 100 < (w.extractLsb' 16 8).toNat then 100 else w.extractLsb' 16 8,
      mode := if w.getLsbD 24 then .sensed else .timed }
  | _ =>
    { c with
      warn := if w.extractLsb' 0 8 = 0 then 1 else w.extractLsb' 0 8,
      retire := w.extractLsb' 8 8 }

/-- The code bit of a confirmation mode. -/
def ConfirmMode.bit : ConfirmMode → BitVec 1
  | .timed => 0
  | .sensed => 1

/-- Word `k` of the four words of a class record. -/
def ClassEntry.word (c : ClassEntry) (k : Nat) : Word :=
  match k with
  | 0 => c.release ++ c.operate
  | 1 => c.senseTimeout ++ c.settle
  | 2 => 0#7 ++ c.mode.bit ++ c.derate ++ c.ratedLife
  | _ => 0#16 ++ c.retire ++ c.warn

/-- The role a role code names; 3 names none. -/
def Role.ofCode (c : BitVec 2) : Option Role :=
  match c.toNat with
  | 0 => some .passive
  | 1 => some .sense
  | 2 => some .force
  | _ => none

/-- The code of a role. -/
def Role.code : Role → BitVec 2
  | .passive => 0
  | .sense => 1
  | .force => 2

/-- The entry a PORTS word holds, when its role is defined (R8). -/
def PortEntry.ofWord (w : Word) : Option PortEntry :=
  (Role.ofCode (w.extractLsb' 0 2)).map (fun r => { role := r, guarded := w.getLsbD 4 })

/-- The PORTS word of an entry. -/
def PortEntry.word (e : PortEntry) : Word :=
  0#27 ++ BitVec.ofBool e.guarded ++ 0#2 ++ e.role.code

/-- The value a PIN_MAP word holds: a pin line or UNMAPPED, when it is one (R11). -/
def pinOfWord (w : Word) : Option (Option (BitVec 6)) :=
  let v := (w.extractLsb' 0 8).toNat
  if v < 64 then some (some (w.extractLsb' 0 6)) else if v = 255 then some none else none

/-- The PIN_MAP word of a value. -/
def pinWord : Option (BitVec 6) → Word
  | none => 255
  | some p => 0#26 ++ p

/-- The value a PORT_MAP word holds: a port node or UNMAPPED, when it is one (R12). -/
def portOfWord (w : Word) : Option (Option (BitVec 5)) :=
  let v := (w.extractLsb' 0 8).toNat
  if 80 ≤ v ∧ v ≤ 111 then some (some (BitVec.ofNat 5 (v - 80))) else if v = 255 then some none else none

/-- The PORT_MAP word of a value. -/
def portWord : Option (BitVec 5) → Word
  | none => 255
  | some p => BitVec.ofNat 32 (80 + p.toNat)

/-! ### ROUTE_DIR, ENTRIES -/

/-- The entry a ROUTE_DIR word holds, when its count is at most 64 (R20). -/
def DirEntry.ofWord (w : Word) : Option DirEntry :=
  if (w.extractLsb' 16 7).toNat ≤ 64 then
    some { first := w.extractLsb' 0 11, count := w.extractLsb' 16 7, stop := w.getLsbD 29, defined := w.getLsbD 30 }
  else none

/-- The ROUTE_DIR word of an entry. -/
def DirEntry.word (e : DirEntry) : Word :=
  0#1 ++ BitVec.ofBool e.defined ++ BitVec.ofBool e.stop ++ 0#6 ++ e.count ++ 0#5 ++ e.first

/-- The trunk a trunk field names: 0-15 a trunk, 31 AUTO, and 16-30 none (R22). -/
def Trunk.ofField (f : BitVec 5) : Option Trunk :=
  if f.toNat < 16 then some (.fixed (f.extractLsb' 0 4)) else if f.toNat = 31 then some .auto else none

/-- The trunk field of a trunk. -/
def Trunk.field : Trunk → BitVec 5
  | .fixed t => 0#1 ++ t
  | .auto => 31

/-- The entry an ENTRIES word encodes; a word with a bit set outside the fields of its kind encodes none (R22). -/
def Entry.ofWord (w : Word) : Option Entry :=
  if w.getLsbD 31 then
    if w.extractLsb' 10 21 = 0 then some (.direct (w.extractLsb' 0 10)) else none
  else if w.extractLsb' 5 3 = 0 ∧ w.extractLsb' 12 4 = 0 ∧ w.extractLsb' 21 10 = 0 then
    (Trunk.ofField (w.extractLsb' 16 5)).map (fun t => .path (w.extractLsb' 0 5) (w.extractLsb' 8 4) t)
  else none

/-- The ENTRIES word of an entry. -/
def Entry.word : Entry → Word
  | .path pin port trunk => 0#11 ++ trunk.field ++ 0#4 ++ port ++ 0#3 ++ pin
  | .direct relay => 1#1 ++ 0#21 ++ relay

/-! ### WEAR, CONFIG -/

/-- The health a health code names; 3 names none (R161). -/
def Health.ofCode (c : BitVec 2) : Option Health :=
  match c.toNat with
  | 0 => some .good
  | 1 => some .suspect
  | 2 => some .retired
  | _ => none

/-- The code of a health. -/
def Health.code : Health → BitVec 2
  | .good => 0
  | .suspect => 1
  | .retired => 2

/-- The parameters after word `k` of the six is written with the clamping of R188. -/
def Params.written (p : Params) (k : Nat) (w : Word) : Params :=
  let v := (w.extractLsb' 0 16).toNat
  match k with
  | 0 => { p with waveLimit := min (max v 1) 64 }
  | 1 => { p with guardTimeout := max v 1 }
  | 2 => { p with policy := if w.getLsbD 0 then .proceed else .abort }
  | 3 => { p with hotWeight := min (max v 1) 255 }
  | 4 => { p with arbitration := BitVec.ofNat 4 (min v 15) }
  | _ => { p with mask := w.extractLsb' 0 14 &&& ~~~(1#14 <<< Cause.lockout.bit) }

/-- The code of a guard policy. -/
def GuardPolicy.code : GuardPolicy → Word
  | .abort => 0
  | .proceed => 1

/-- Word `k` of the six CONFIG words. -/
def Params.word (p : Params) (k : Nat) : Word :=
  match k with
  | 0 => BitVec.ofNat 32 p.waveLimit
  | 1 => BitVec.ofNat 32 p.guardTimeout
  | 2 => p.policy.code
  | 3 => BitVec.ofNat 32 p.hotWeight
  | 4 => 0#28 ++ p.arbitration
  | _ => 0#18 ++ p.mask

/-! ### VALIDATION, NOTICES, FAULT, RESULT -/

/-- The code of a validation outcome. -/
def ValidationOutcome.code : ValidationOutcome → BitVec 3
  | .none => 0
  | .ok => 1
  | .badEndpoints => 2
  | .badClass => 3
  | .classOrder => 4
  | .badGuard => 5
  | .pinAlias => 6

/-- The VALIDATION word. -/
def ValidationRecord.word (v : ValidationRecord) : Word :=
  0#2 ++ BitVec.ofNat 10 v.related ++ 0#2 ++ BitVec.ofNat 10 v.index ++ 0#5 ++ v.outcome.code

/-- The code bit of a notice kind. -/
def NoticeKind.bit : NoticeKind → BitVec 1
  | .warn => 0
  | .retire => 1

/-- The NOTICES word of a record; the count is divided by 2048, rounded down (R166). -/
def Notice.word (n : Notice) : Word :=
  n.count.extractLsb' 11 21 ++ n.kind.bit ++ BitVec.ofNat 10 n.relay

/-- The code of a fault kind; 0 is NONE. -/
def FaultKind.code : FaultKind → BitVec 2
  | .chain => 1
  | .contact => 2
  | .guardTimeout => 3

/-- The code of a phase; 0 is absent. -/
def FaultPhase.code : FaultPhase → BitVec 2
  | .guard => 1
  | .opening => 2
  | .closing => 3

/-- The code of a transition kind; 0 is absent. -/
def TransitionKind.code : TransitionKind → BitVec 2
  | .stepped => 1
  | .rollback => 2
  | .safeOpen => 3

/-- Word `k` of the three FAULT words. The chain and the relay read as all ones when absent: DEDUCED (log 17). -/
def FaultRecord.word (f : FaultRecord) (k : Nat) : Word :=
  match k, f.first with
  | 0, none => 0#8 ++ BitVec.ofNat 8 f.additional ++ 15#4 ++ 0#12
  | 0, some e =>
    0#8 ++ BitVec.ofNat 8 f.additional ++ absentField 4 (e.chain.map Fin.val) ++ 0#2 ++ e.transition.code ++ 0#2 ++
      e.phase.code ++ 0#2 ++ e.kind.code
  | 1, none => 0
  | 1, some e => e.number
  | _, none => 0#21 ++ absentField 11 none
  | _, some e => 0#5 ++ BitVec.ofNat 11 e.count ++ 0#5 ++ absentField 11 e.relay

/-- The code of a resolution outcome. -/
def ResolveOutcome.code : ResolveOutcome → BitVec 4
  | .none => 0
  | .ok => 1
  | .badSet => 2
  | .unmapped => 3
  | .unroutable => 4
  | .noTrunk => 5
  | .retired => 6
  | .overlap => 7
  | .short => 8
  | .crossSite => 9
  | .cancelled => 10

/-- The code of an action. -/
def Action.code : Action → BitVec 2
  | .check => 0
  | .stage => 1
  | .apply => 2

/-- The mode a mode code names; 3 names none (R37). -/
def StepMode.ofCode (c : BitVec 2) : Option StepMode :=
  match c.toNat with
  | 0 => some .replace
  | 1 => some .add
  | 2 => some .clear
  | _ => none

/-- The code of a step mode. -/
def StepMode.code : StepMode → BitVec 2
  | .replace => 0
  | .add => 1
  | .clear => 2

/-- Word `k` of the nine RESULT words. -/
def ResultRecord.word (r : ResultRecord) (k : Nat) : Word :=
  match k with
  | 0 =>
    0#3 ++ BitVec.ofBool r.replaced ++ 0#3 ++ r.effective ++ r.routeSet ++ r.mode.code ++ r.action.code ++
      r.outcome.code
  | 1 => r.baseNumber
  | 2 => 0#1 ++ absentField 11 r.relay ++ absentField 12 r.entryIndex ++ ownerField r.holder ++ ownerField r.owner
  | 3 => 0#8 ++ absentField 8 r.net ++ absentField 8 r.node2 ++ absentField 8 r.node1
  | 4 => 0#5 ++ BitVec.ofNat 11 r.closeCount ++ 0#5 ++ BitVec.ofNat 11 r.openCount
  | 5 => 0#5 ++ BitVec.ofNat 11 r.closeWaves ++ 0#5 ++ BitVec.ofNat 11 r.openWaves
  | 6 => 0#21 ++ BitVec.ofNat 11 r.reassignedCount
  | 7 => BitVec.ofNat 32 r.duration
  | _ => 0#8 ++ r.guarded

/-! ### ACTUAL, STATUS -/

/-- The code of a relay's actual state. -/
def Contact.code : Contact → BitVec 2
  | .opened => 0
  | .closed => 1
  | .unknown => 2

/-- The pending flag of relay `r`: it is on a pending list (R100; log 19). -/
def State.isPending (s : State) (r : Nat) : Bool :=
  decide (r ∈ s.engine.pendingOpen) || decide (r ∈ s.engine.pendingClose)

/-- The ACTUAL word of relay `r`. -/
def State.actualWord (s : State) (r : Nat) : Word :=
  0#27 ++ BitVec.ofBool (s.isPending r) ++ 0#2 ++ (s.engine.actual.get .opened r).code

/-- The code of a controller mode. -/
def Mode.code : Mode → BitVec 2
  | .configure => 0
  | .run => 1
  | .lockedOut => 2

/-- The code of an engine state. -/
def EnginePhase.code : EnginePhase → BitVec 3
  | .idle => 0
  | .guarding => 1
  | .opening => 2
  | .closing => 3
  | .suspended => 4
  | .lockout => 5

/-- The code of a gate mode. -/
def GateMode.code : GateMode → BitVec 2
  | .normal => 0
  | .single => 1
  | .free => 2
  | .halt => 3

/-- The gate mode that a SET_GATE operand names (section 10.7). -/
def GateMode.ofOperand (v : BitVec 16) : Option GateMode :=
  match v.toNat with
  | 0 => some .normal
  | 1 => some .single
  | 2 => some .free
  | 3 => some .halt
  | _ => none

/-- The code of a halt reason. -/
def HaltReason.code : HaltReason → BitVec 3
  | .none => 0
  | .command => 1
  | .stopMark => 2
  | .singleDone => 3
  | .fault => 4

/-- The code of a suspension reason. -/
def SuspendReason.code : SuspendReason → BitVec 2
  | .none => 0
  | .fault => 1
  | .aborted => 2

/-- The code of the slot's state: EMPTY, UNBOUND or BOUND (R142). -/
def slotCode : Option Plan → BitVec 2
  | none => 0
  | some p => if p.bound then 2 else 1

/-- The phase STATUS shows: that of the transition in flight, or the suspended phase (R130). -/
def State.statusPhase (s : State) : BitVec 2 :=
  match s.engine.phase with
  | .guarding => FaultPhase.guard.code
  | .opening => FaultPhase.opening.code
  | .closing => FaultPhase.closing.code
  | .suspended =>
    match s.engine.suspendedPhase with
    | some p => p.code
    | none => 0
  | .idle | .lockout => 0

/-- The transition kind STATUS shows, 0 when the engine holds no transition. -/
def State.statusKind (s : State) : BitVec 2 :=
  match s.engine.transition with
  | some t => t.kind.code
  | none => 0

/-- The HOT mark STATUS shows: that of the transition in flight or suspended (R97). With none the spec gives no value, and
the bit reads 0 (DESIGN CHOICE, log 32). -/
def State.statusHot (s : State) : Bool :=
  match s.engine.transition with
  | some t => t.hot
  | none => false

/-- The resolver action STATUS shows, 0 when the resolver is IDLE. -/
def State.statusAction (s : State) : BitVec 2 :=
  match s.resolver.context with
  | some ctx => ctx.action.code
  | none => 0

/-- Word `k` of the nine STATUS words. -/
def State.statusWord (s : State) (k : Nat) : Word :=
  match k with
  | 0 =>
    0#1 ++ s.gate.reason.code ++ 0#2 ++ s.gate.mode.code ++ 0#2 ++ slotCode s.gate.slot ++ 0#1 ++
      BitVec.ofBool s.gate.latch ++ BitVec.ofBool s.alertLow ++ BitVec.ofBool s.readyReleased ++ 0#1 ++
      s.statusAction ++ BitVec.ofBool s.resolver.context.isSome ++ 0#1 ++ s.engine.phase.code ++ s.ring.address ++
      0#2 ++ s.control.mode.code
  | 1 =>
    0#4 ++ BitVec.ofBool s.control.resetRecord.linkLoss ++ BitVec.ofBool s.control.resetRecord.softFrame ++
      BitVec.ofBool s.control.resetRecord.rstn ++ BitVec.ofBool s.control.resetRecord.powerOn ++ 0#3 ++
      BitVec.ofNat 5 s.wear.notices.length ++ 0#6 ++ s.engine.suspension.code ++ 0#1 ++ BitVec.ofBool s.statusHot ++
      s.statusPhase ++ 0#2 ++ s.statusKind
  | 2 => s.engine.current
  | 3 => s.engine.lastCompleted
  | 4 => 0#5 ++ BitVec.ofNat 11 s.engine.pendingClose.length ++ 0#5 ++ BitVec.ofNat 11 s.engine.pendingOpen.length
  | 5 => 0#18 ++ s.alerts.pending
  | _ =>
    match s.gate.slot with
    | none => 0
    | some p =>
      match k with
      | 6 => 0#22 ++ p.action.code ++ p.routeSet
      | 7 => p.baseNumber
      | _ => BitVec.ofNat 32 p.duration

end Sys2Proof.Machine
end

