-- ==== Sys2Proof/Machine/Ring.lean ====
section
/-! DEFINITION. The ring port: which frames it acts on, and the reply fields it writes (R169 to R176, R183, R184). -/

namespace Sys2Proof.Machine

/-- Reasons of BUSY and REFUSED answers (section 10.7). -/
inductive Reason where
  | badSpace | badIndex | badLength | badArgument | wrongMode | readOnly | notEmpty | invalidTables | notSuspended
  | nothingInFlight | noCursor | lockedOut | resolving | setInUse | bound | engine
deriving DecidableEq, Repr

/-- The code of a reason (section 10.7). -/
def Reason.code : Reason → Byte
  | .badSpace => 1
  | .badIndex => 2
  | .badLength => 3
  | .badArgument => 4
  | .wrongMode => 5
  | .readOnly => 6
  | .notEmpty => 7
  | .invalidTables => 8
  | .notSuspended => 9
  | .nothingInFlight => 10
  | .noCursor => 11
  | .lockedOut => 12
  | .resolving => 13
  | .setInUse => 14
  | .bound => 15
  | .engine => 16

/-- What a controller that acts on a frame answers (R176). -/
inductive Answer where
  | done
  | accepted
  | busy (r : Reason)
  | refused (r : Reason)
deriving DecidableEq, Repr

/-- Whether an answer takes the frame: DONE or ACCEPTED (R174, R176). -/
def Answer.takes : Answer → Bool
  | .done | .accepted => true
  | .busy _ | .refused _ => false

/-- The status code of an answer (section 10.7). -/
def Answer.status : Answer → Byte
  | .done => 1
  | .accepted => 2
  | .busy _ => 3
  | .refused _ => 4

/-- The reason code of an answer: 0 when it takes the frame (R176). -/
def Answer.reason : Answer → Byte
  | .done | .accepted => 0
  | .busy r | .refused r => r.code

/-- What a frame's handling gives: the answer and the state after it. -/
structure Handled where
  answer : Answer
  state : State
deriving DecidableEq, Repr

/-- A frame refused: no state changes (R176). -/
def Handled.refuse (r : Reason) (s : State) : Handled := { answer := .refused r, state := s }

/-- A frame refused because of work in progress: no state changes (R176). -/
def Handled.busy (r : Reason) (s : State) : Handled := { answer := .busy r, state := s }

/-- The words `ws` sent on RING_OUT after every frame before them (R169). -/
def State.send (s : State) (ws : List Word) : State := { s with ring.sent := s.ring.sent ++ [ws] }

/-- An 8-bit count with one added, saturating at 255 (R174, R184). -/
def countUp (c : Byte) : Byte := if c = 255 then 255 else c + 1

/-- An envelope with this controller's refuse bit set (R174). -/
def refusedBroadcast (e : Envelope) (address : BitVec 4) : Envelope :=
  { e with refusals := e.refusals ||| (1#16 <<< address.toNat) }

/-- An envelope with this controller's answer in it: status and reason when it was addressed, the accept count or the
refuse bit when it was broadcast (R173, R174). -/
def answered (e : Envelope) (broadcast : Bool) (address : BitVec 4) (a : Answer) : Envelope :=
  if broadcast then
    if a.takes then { e with accepts := countUp e.accepts } else refusedBroadcast e address
  else { e with status := a.status, reason := a.reason }

/-- An envelope with the ADDRESS_CLASH mark set (R173). -/
def clashed (e : Envelope) : Envelope := { e with marks := e.marks ||| 2#8 }

/-- An envelope with the CORRUPT mark set (R171). -/
def corrupted (e : Envelope) : Envelope := { e with marks := e.marks ||| 1#8 }

/-- Whether the payload length field exceeds 16 or disagrees with the words carried (R175). -/
def lengthBad (e : Envelope) : Bool :=
  decide (16 < e.length.toNat ∨ e.length.toNat ≠ e.payload.length)

/-- What the ring port does with an arriving frame whose CRC agrees and whose kind is not POLL. -/
inductive Disposition where
  /-- Symbol lock is lost: the frame is not received whole, not acted on and not sent on (R169; log 11). -/
  | cutShort
  /-- Sent on unchanged: a reset is in progress, the frame is marked CORRUPT, or it is for another controller. -/
  | pass
  /-- Addressed to this controller with a status other than EMPTY (R173). -/
  | clash
  /-- Refused for its length (R175). -/
  | badLength (broadcast : Bool)
  /-- Acted on (R173, R174). -/
  | act (broadcast : Bool)
deriving DecidableEq, Repr

/-- The disposition of a frame (R169, R171 to R175, R183). -/
def State.disposition (s : State) (e : Envelope) : Disposition :=
  if s.control.lockLost then .cutShort
  else if s.control.resetting.isSome || isCorrupt e then .pass
  else if e.dest.toNat = s.ring.address.toNat then
    if e.status ≠ 0 then .clash else if lengthBad e then .badLength false else .act false
  else if e.dest.toNat = 255 then
    if lengthBad e then .badLength true else .act true
  else .pass

/-- A frame of kind `kind` at the ring port. `handle` is the handling of a frame that is acted on, told whether it was
broadcast; it gives the state after it, the answer, and the payload and filled count it leaves. -/
def State.receive (s : State) (kind : Byte) (arg : Word) (e : Envelope) (handle : Bool → Handled × Envelope) : State :=
  match s.disposition e with
  | .cutShort => s
  | .pass => s.send (sealedWords kind arg e)
  | .clash => s.send (sealedWords kind arg (clashed e))
  | .badLength broadcast =>
    s.send (sealedWords kind arg (answered e broadcast s.ring.address (.refused .badLength)))
  | .act broadcast =>
    let h := handle broadcast
    h.1.state.send (sealedWords kind arg (answered h.2 broadcast s.ring.address h.1.answer))

/-- A frame whose handling leaves its payload and filled count as they arrived. -/
def State.receivePlain (s : State) (kind : Byte) (arg : Word) (e : Envelope) (h : Handled) : State :=
  s.receive kind arg e (fun _ => (h, e))

/-- A frame sent on unchanged, unless it is cut short (R169). -/
def State.forward (s : State) (ws : List Word) : State := if s.control.lockLost then s else s.send ws

end Sys2Proof.Machine
end

