-- ==== Sys2Proof/Machine/Fill.lean ====
section
/-! DEFINITION. The words of the address spaces, and the filling of a READ, between whose words events of other blocks may
fall (R179, R181). -/

namespace Sys2Proof.Machine

/-- The word of a space at an index, as the tables and records stand (R179, section 10.7). -/
def State.wordAt (s : State) (sp : Space) (i : Nat) : Word :=
  match sp with
  | .relayMap => (s.topology.relayMap.get .absent i).word
  | .cls => (s.topology.classes.get .initial (i / 4)).word (i % 4)
  | .ports => (s.topology.ports.get .initial i).word
  | .siteEnable => 0#31 ++ BitVec.ofBool (s.topology.sites.get false i)
  | .pinMap => pinWord (s.topology.pinMap.get none i)
  | .portMap => portWord (s.topology.portMap.get none i)
  | .routeDir => (s.store.directory.get .initial i).word
  | .entries => (s.store.pool.get .initial i).word
  | .wear =>
    if i % 2 = 0 then (s.wear.records.get .initial (i / 2)).count
    else 0#30 ++ (s.wear.records.get .initial (i / 2)).health.code
  | .config => s.control.params.word i
  | .status => s.statusWord i
  | .result => s.resolver.result.word i
  | .fault => s.engine.fault.word i
  | .holdings => 0#28 ++ ownerCode (Table.get none s.engine.holdings i)
  | .actual => s.actualWord i
  | .notices => 0
  | .validation => s.topology.validation.word

/-- An envelope with its first payload words replaced by `ws` and the filled count set (R181). -/
def filledWith (e : Envelope) (ws : List Word) : Envelope :=
  { e with payload := ws ++ e.payload.drop ws.length, filled := BitVec.ofNat 8 ws.length }

/-- Whether an event of another block may fall right before the word at index `i` of a READ that starts at `start`: before
its first word always, but not between the two words of one WEAR record, nor inside a record that one READ takes whole
(R116, R181). -/
def Space.partsAt (sp : Space) (start i : Nat) : Bool :=
  decide (i = start) ||
    match sp with
    | .wear => decide (i % 2 = 0)
    | .status | .result | .fault | .validation | .notices => false
    | .relayMap | .cls | .ports | .siteEnable | .pinMap | .portMap | .routeDir | .entries | .config | .holdings
    | .actual => true

/-- The words that a READ from `start` takes now, from index `i` on and at most `n`: up to the first word before which
another event falls, which is FREE where R116 and R181 let one fall (log 12). -/
def State.wordsNow (s : State) (sp : Space) (start : Nat) : Nat → Nat → List Word
  | _, 0 => []
  | i, n + 1 =>
    if sp.partsAt start i && Config.readPauses s.free i then [] else s.wordAt sp i :: s.wordsNow sp start (i + 1) n

/-- `r` with more words filled. -/
def Reading.more (r : Reading) (ws : List Word) : Reading := { r with filled := r.filled ++ ws }

/-- The index of the next word of a READ. -/
def Reading.next (r : Reading) : Nat := r.start + r.filled.length

/-- How many words a READ has still to fill. -/
def Reading.left (r : Reading) : Nat := r.goal - r.filled.length

/-- The words of a filled READ as it leaves: DONE, with its filled count and its words (R181). -/
def Reading.words (r : Reading) (address : BitVec 4) : List Word :=
  sealedWords kindRead r.arg (answered (filledWith r.env r.filled) false address .done)

/-- A READ that has filled what it fills is sent on; any other is held. -/
def State.holdOrSend (s : State) (r : Reading) : State :=
  if r.left = 0 then { s with ring.reading := none }.send (r.words s.ring.address)
  else { s with ring.reading := some r }

/-- After an event of another block: the READ being filled takes more words, as the state now stands (R181). -/
def State.fillOn (s : State) : State :=
  match s.ring.reading with
  | some r => { s with free := s.free + 1 }.holdOrSend (r.more (s.wordsNow r.space r.start r.next r.left))
  | none => s

/-- Before the next frame: the READ being filled takes the rest of its words and is sent on, since frames leave in the
order in which they arrived (R169, R181). -/
def State.finishRead (s : State) : State :=
  match s.ring.reading with
  | some r =>
    { s with ring.reading := none }.send
      ((r.more ((List.range r.left).map (fun k => s.wordAt r.space (r.next + k)))).words s.ring.address)
  | none => s

end Sys2Proof.Machine
end

