-- ==== Sys2Proof/Machine/Matrix.lean ====
section
/-! DEFINITION. The matrix: lookups in the topology tables, nets, and the two net checks (R1 to R13, R48 to R50). -/

namespace Sys2Proof.Machine

/-- The relay map entry of relay `r` (R3). -/
def State.relay (s : State) (r : Nat) : RelayEntry := s.topology.relayMap.get .absent r

/-- The port table entry of port node 80+`i` (R8). -/
def State.port (s : State) (i : Nat) : PortEntry := s.topology.ports.get .initial i

/-- The owner of relay `r` in a holding table, a base owner map or a target (R27). -/
def ownerOf (h : Holdings) (r : Nat) : Option Owner := Table.get none h r

/-- Whether an entry is a present relay that joins nodes `x` and `y`, in either order (R3, R5). -/
def RelayEntry.joins (e : RelayEntry) (x y : Nat) : Bool :=
  e.present && decide ((e.a.toNat = x ∧ e.b.toNat = y) ∨ (e.a.toNat = y ∧ e.b.toNat = x))

/-- The pair lookup: the present relay of lowest index that joins `x` and `y` (R5). An unlisted position is absent, and
the listed ones stand in ascending order. -/
def State.pairLookup (s : State) (x y : Nat) : Option Nat :=
  (s.topology.relayMap.find? (fun e => e.2.joins x y)).map Prod.fst

/-- Whether site `site` owns pin line `p` (R13). -/
def State.owns (s : State) (site p : Nat) : Bool :=
  s.topology.pinMap.any (fun e => decide (e.1 / 32 = site ∧ e.2.map BitVec.toNat = some p))

/-- Whether node `n` is a port node of role FORCE (R2). -/
def State.isForce (s : State) (n : Nat) : Bool :=
  decide (80 ≤ n ∧ n ≤ 111) && decide ((s.port (n - 80)).role = .force)

/-- Whether port node 80+`k` is a guarded FORCE port (R9). -/
def State.isGuarded (s : State) (k : Nat) : Bool :=
  decide (k < 24) && s.isForce (80 + k) && (s.port k).guarded

/-- The set of every guarded port, bit k for port node 80+k (R9, R137). -/
def State.allGuarded (s : State) : BitVec 24 :=
  (List.range 24).foldl (fun m k => if s.isGuarded k then m ||| (1#24 <<< k) else m) 0

/-- The net identity of node `n` in a list of labels: the lowest node of its net (R48). -/
def labelOf (labels : List Nat) (n : Nat) : Nat := labels.getD n n

/-- The labels after nodes `x` and `y` are joined: the two nets take the lower of their identities. -/
def joinNodes (labels : List Nat) (x y : Nat) : List Nat :=
  let lx := labelOf labels x
  let ly := labelOf labels y
  labels.map (fun l => if l = lx ∨ l = ly then min lx ly else l)

/-- The net identity of each of the 112 nodes under holdings `h`: each held relay joins its two endpoints (R48). -/
def State.netLabels (s : State) (h : Holdings) : List Nat :=
  h.foldl
    (fun labels e =>
      if e.2.isSome then joinNodes labels (s.relay e.1).a.toNat (s.relay e.1).b.toNat else labels)
    (List.range 112)

/-- The nodes of the net of identity `n`, ascending. -/
def netNodes (labels : List Nat) (n : Nat) : List Nat :=
  (List.range 112).filter (fun m => decide (labelOf labels m = n))

/-- The net identities, ascending. -/
def netIdentities (labels : List Nat) : List Nat :=
  (List.range 112).filter (fun n => decide (labelOf labels n = n))

/-- The FORCE port nodes among some nodes, in their order (R49). -/
def State.forceNodes (s : State) (nodes : List Nat) : List Nat := nodes.filter (fun n => s.isForce n)

/-- The lowest pin line of site `site` among some nodes in ascending order (R50). -/
def State.lowestPin (s : State) (nodes : List Nat) (site : Nat) : Option Nat :=
  nodes.find? (fun n => decide (n < 64) && s.owns site n)

/-- The lowest pin line of each site present among some nodes, by ascending site (R50). -/
def State.sitePins (s : State) (nodes : List Nat) : List Nat := (List.range 8).filterMap (fun site => s.lowestPin nodes site)

/-- What stops a resolution, with the fields of the result record it fills (R56). -/
structure Conflict where
  outcome : ResolveOutcome
  owner : Option Owner
  entryIndex : Option Nat
  node1 : Option Nat
  node2 : Option Nat
  relay : Option Nat
  holder : Option Owner
  net : Option Nat
deriving DecidableEq, Repr

/-- A conflict that fills no field beyond its outcome. -/
def Conflict.bare (o : ResolveOutcome) : Conflict :=
  { outcome := o, owner := none, entryIndex := none, node1 := none, node2 := none, relay := none, holder := none,
    net := none }

/-- The checks of the net of identity `n`: SHORT, then CROSS_SITE (R48 to R50). -/
def State.netConflict (s : State) (labels : List Nat) (n : Nat) : Option Conflict :=
  match s.forceNodes (netNodes labels n) with
  | x :: y :: _ => some { Conflict.bare .short with node1 := some x, node2 := some y, net := some n }
  | _ =>
    match s.sitePins (netNodes labels n) with
    | x :: y :: _ => some { Conflict.bare .crossSite with node1 := some x, node2 := some y, net := some n }
    | _ => none

/-- The net check of a target: the first net that fails, by ascending identity (R48). -/
def State.netCheck (s : State) (target : Holdings) : Option Conflict :=
  let labels := s.netLabels target
  (netIdentities labels).findSome? (fun n => s.netConflict labels n)

/-- Whether holdings have no net that fails either check (R48). -/
def State.netsPass (s : State) (h : Holdings) : Bool := (s.netCheck h).isNone

end Sys2Proof.Machine
end

