-- ==== Sys2Proof/Machine/Arithmetic.lean ====
section
/-! DEFINITION. Switching time and wear arithmetic (chapter 4). -/

namespace Sys2Proof.Machine

/-- The rated life L of a class, in weighted operations (R69). -/
def ratedLife (c : ClassEntry) : Nat := c.ratedLife.toNat * 1000

/-- The extra time of base time `b` at wear count `w`: the smallest integer not less than the exact quotient (R70). -/
def extraTime (c : ClassEntry) (w b : Nat) : Nat :=
  (b * min w (2 * ratedLife c) * c.derate.toNat + (ratedLife c * 100 - 1)) / (ratedLife c * 100)

/-- The derated time of base time `b` at wear count `w` (R70). -/
def derated (c : ClassEntry) (w b : Nat) : Nat := b + extraTime c w b

/-- The base of the open or close time (R72). -/
def baseTime (c : ClassEntry) (close : Bool) : Nat :=
  if close then c.operate.toNat + c.settle.toNat else c.release.toNat

/-- The open or close time of a relay of class `c` at wear count `w` (R72). -/
def switchTime (c : ClassEntry) (close : Bool) (w : Nat) : Nat := derated c w (baseTime c close)

/-- The warn threshold (R79). -/
def warnThreshold (c : ClassEntry) : Nat := ratedLife c * c.warn.toNat / 100

/-- The retire threshold (R79). -/
def retireThreshold (c : ClassEntry) : Nat := ratedLife c * c.retire.toNat / 100

/-- The weight of one confirmed change: H while HOT; cold, 1 for a close and 0 for an open (R76). -/
def wearWeight (hot close : Bool) (h : Nat) : Nat :=
  if hot then h else if close then 1 else 0

/-- A wear count after an increment, saturating at 4,294,967,295 (R77). -/
def addedWear (count : Word) (weight : Nat) : Word :=
  BitVec.ofNat 32 (min (count.toNat + weight) 4294967295)

/-- Whether an increment from `b0` to `b1` crosses the threshold (R80). -/
def crosses (threshold : Nat) (b0 b1 : Word) : Bool :=
  decide (b0.toNat < threshold ∧ threshold ≤ b1.toNat)

/-- The class record that a relay's entry names (R6). -/
def State.classOf (s : State) (r : Nat) : ClassEntry :=
  s.topology.classes.get .initial (s.topology.relayMap.get .absent r).cls.toNat

/-- The wear record of relay `r` (R158). -/
def State.wearOf (s : State) (r : Nat) : WearRecord := s.wear.records.get .initial r

/-- The open or close time of relay `r` at its present wear count (R72, R75). -/
def State.relayTime (s : State) (close : Bool) (r : Nat) : Nat :=
  switchTime (s.classOf r) close (s.wearOf r).count.toNat

/-- The time of a wave: the largest relay time among its relays (R73). -/
def State.waveTime (s : State) (close : Bool) (rs : List Nat) : Nat :=
  rs.foldl (fun m r => max m (s.relayTime close r)) 0

/-- A list cut into runs of `w`, the last holding the remainder; the first argument bounds the number of runs (R53). -/
def cutWaves (w : Nat) : Nat → List Nat → List (List Nat)
  | 0, _ => []
  | _ + 1, [] => []
  | n + 1, r :: rs => (r :: rs).take w :: cutWaves w n ((r :: rs).drop w)

/-- The waves of a set, taken in the order of the list (R53). -/
def wavesOf (w : Nat) (rs : List Nat) : List (List Nat) := cutWaves w rs.length rs

/-- The sum of the wave times of a set (R54, R74). -/
def State.wavesTime (s : State) (close : Bool) (w : Nat) (rs : List Nat) : Nat :=
  ((wavesOf w rs).map (fun wave => s.waveTime close wave)).sum

end Sys2Proof.Machine
end

