-- ==== Sys2Proof/Machine/Ops.lean ====
section
/-! DEFINITION. The operations the commands share: the gate, the transition engine, the coil chain unit, the wear unit
and the start and end of a reset. -/

namespace Sys2Proof.Machine

/-! ### Wear unit (R163 to R165) -/

/-- A notice handed on: appended with WEAR, or discarded at a full list with NOTICE_FULL (R165). -/
def State.handNotice (s : State) (n : Notice) : State :=
  if s.wear.notices.length < 16 then
    { s with wear.notices := s.wear.notices ++ [n] }.raise .wear
  else s.raise .noticeFull

/-- The wear record of `r` replaced. -/
def State.setWear (s : State) (r : Nat) (w : WearRecord) : State :=
  { s with wear.records := s.wear.records.put .initial r w }

/-- The increment of one confirmation, with its threshold crossings (R163). -/
def State.addWear (s : State) (r weight : Nat) : State :=
  let b0 := (s.wearOf r).count
  let b1 := addedWear b0 weight
  let counted := s.setWear r { s.wearOf r with count := b1 }
  let warned :=
    if crosses (warnThreshold (s.classOf r)) b0 b1 then
      counted.handNotice { relay := r, kind := .warn, count := b1 }
    else counted
  if crosses (retireThreshold (s.classOf r)) b0 b1 then
    (warned.setWear r { count := b1, health := .retired }).handNotice { relay := r, kind := .retire, count := b1 }
  else warned

/-- The health change of one relay named by a CONTACT fault (R126, R164). -/
def State.degrade (s : State) (r : Nat) : State :=
  match (s.wearOf r).health with
  | .good => s.setWear r { s.wearOf r with health := .suspect }
  | .suspect =>
    (s.setWear r { s.wearOf r with health := .retired }).handNotice
      { relay := r, kind := .retire, count := (s.wearOf r).count }
  | .retired => s

/-! ### Fault record (R125) -/

/-- A fault taken by the fault record: it fills a clear record, or adds one to the additional faults up to 255 (R125). -/
def recordFault (f : FaultRecord) (e : FaultEntry) : FaultRecord :=
  match f.first with
  | none => { first := some e, additional := 0 }
  | some _ => { f with additional := min (f.additional + 1) 255 }

/-- The fault phase of the engine's state: GUARD while GUARDING, OPEN while OPENING, CLOSE while CLOSING (R123, R130). -/
def EnginePhase.faultPhase : EnginePhase → FaultPhase
  | .opening => .opening
  | .closing => .closing
  | .idle | .guarding | .suspended | .lockout => .guard

/-- A fault of the transition in flight passed to the fault record, with the relays it names (R111, R123, R124). -/
def State.fault (s : State) (kind : FaultKind) (phase : FaultPhase) (chain : Option (Fin 8)) (relays : List Nat) :
    State :=
  match s.engine.transition with
  | none => s
  | some t =>
    { s with
      engine.fault := recordFault s.engine.fault
        { kind := kind, phase := phase, transition := t.kind, number := t.number, relay := relays.min?, chain := chain,
          count := relays.length } }

/-! ### Gate halts (R152 to R154) -/

/-- The gate sent to HALT: an entry raises HALTED, and a change of reason in HALT raises nothing (R152). -/
def State.haltGate (s : State) (reason : HaltReason) : State :=
  if s.gate.mode = .halt then { s with gate.reason := reason }
  else { s with gate.mode := .halt, gate.reason := reason }.raise .halted

/-- What the gate does at a STEPPED completion with STOP mark `stop` (R153). -/
def State.gateCompleted (s : State) (stop : Bool) : State :=
  match s.gate.mode with
  | .normal => if stop then s.haltGate .stopMark else s
  | .single => s.haltGate .singleDone
  | .free | .halt => s

/-- What the gate does at a suspension (R154). -/
def State.gateSuspended (s : State) : State :=
  match s.gate.mode with
  | .free => s
  | .normal | .single | .halt => s.haltGate .fault

/-! ### Waves (R84, R108) -/

/-- An image with position `p` set to `b`. -/
def setPosition (img : Image) (p : Nat) (b : Bool) : Image :=
  if b then img ||| (1#128 <<< p) else img &&& ~~~(1#128 <<< p)

/-- The positions of chain `c` that hold a present relay (R4, R6). -/
def State.presentMask (s : State) (c : Nat) : Image :=
  s.topology.relayMap.foldl
    (fun m e => if e.2.present && decide (e.1 / 128 = c) then setPosition m (e.1 % 128) true else m) 0

/-- The new image of chain `c` for a wave: each wave relay takes its new state, each absent position takes 0, and every
other position keeps its written value (R84). -/
def State.newImage (s : State) (c : Nat) (rs : List Nat) (close : Bool) : Image :=
  (rs.foldl (fun img r => if r / 128 = c then setPosition img (r % 128) close else img) (s.coil.images.get 0 c))
    &&& s.presentMask c

/-- The chains that a list of relays touches, ascending (R84). -/
def touchedChains (rs : List Nat) : List Nat :=
  (List.range 8).filter (fun c => rs.any (fun r => decide (r / 128 = c)))

/-- A wave formed from the front of a pending list and handed to the coil chain unit: attempt 1 of a write exchange
begins on each chain it touches (R84 to R86, R108). -/
def State.formWave (s : State) (close : Bool) (waveLimit : Nat) : State :=
  let rs := (if close then s.engine.pendingClose else s.engine.pendingOpen).take waveLimit
  let chains := touchedChains rs
  { s with
    coil.wave := some
      { close := close,
        relays := rs.map (fun r =>
          { relay := r, mode := (s.classOf r).mode, senseTimeout := (s.classOf r).senseTimeout.toNat,
            status := .writing, spent := false }),
        time := s.waveTime close rs, stage := .writing, failed := false },
    coil.images := chains.foldl (fun t c => t.put 0 c (s.newImage c rs close)) s.coil.images,
    coil.exchanges := chains.foldl (fun t c => t.put .idle c (.writing 1 .shifting)) s.coil.exchanges }

/-! ### Phases and completion (R103, R113) -/

/-- Steps 1 to 6 of the completion of transition `t` (R113). -/
def State.complete (s : State) (t : Transition) : State :=
  let closed :=
    { s with
      engine.quiet := 0, engine.guardWait := none, engine.lastCompleted := t.number, engine.baseMap := [] }.raise .done
  let gated :=
    match t.kind with
    | .stepped => closed.gateCompleted t.stop
    | .rollback | .safeOpen => closed
  { gated with engine.transition := none, engine.phase := .idle, engine.abortNoted := false }

/-- The engine goes on by the last three rows of R103, up to step 6 of a completion. -/
def State.enterPhase (s : State) : State :=
  match s.engine.transition with
  | none => s
  | some t =>
    if s.engine.pendingOpen ≠ [] then
      { s with engine.phase := .opening, engine.guardWait := none }.formWave false t.waveLimit
    else if s.engine.pendingClose ≠ [] then
      { s with engine.phase := .closing, engine.guardWait := none }.formWave true t.waveLimit
    else s.complete t

/-- The engine goes on by R103 at a start or a resumption: it guards first when the guard set is not empty (R104). -/
def State.beginPhases (s : State) : State :=
  match s.engine.transition with
  | none => s
  | some t =>
    if t.guarded ≠ 0 then
      { s with
        engine.phase := .guarding, engine.quiet := t.guarded,
        engine.guardWait := some
          { timeout := s.control.params.guardTimeout, policy := s.control.params.policy } }
    else s.enterPhase

/-! ### Starting a stepped transition, and triggers (R102, R147 to R150) -/

/-- A table with each listed owner put in. -/
def assignOwners (h : Holdings) (l : List (Nat × Owner)) : Holdings :=
  l.foldl (fun t e => t.put none e.1 (some e.2)) h

/-- A table with each listed relay set to NONE. -/
def dropOwners (h : Holdings) (l : List Nat) : Holdings :=
  l.foldl (fun t r => t.put none r none) h

/-- The holding table after a STEPPED start: O becomes NONE, C and the reassigned relays take their owners (R28). -/
def plannedHoldings (h : Holdings) (p : Plan) : Holdings :=
  assignOwners (assignOwners (dropOwners h p.opens) p.closes) p.reassigned

/-- The start of a STEPPED transition (R102). The trigger that takes the plan leaves the latch empty, so step 7 of a
completion in this event re-examines nothing (R149). -/
def State.startStepped (s : State) (p : Plan) : State :=
  State.beginPhases
    { s with
      engine.fault := .clear,
      engine.current := s.engine.current + 1,
      engine.transition := some
        { kind := .stepped, number := s.engine.current + 1, waveLimit := p.waveLimit, guarded := p.guarded,
          stop := p.stop, hot := false },
      engine.baseMap := s.engine.holdings,
      engine.holdings := plannedHoldings s.engine.holdings p,
      engine.pendingOpen := p.opens,
      engine.pendingClose := p.closes.map Prod.fst,
      gate.slot := none }

/-- Whether a plan is stale (R150). -/
def State.isStale (s : State) (p : Plan) : Bool :=
  decide (p.baseNumber ≠ s.engine.lastCompleted) ||
    p.closes.any (fun e => decide ((s.wearOf e.1).health = .retired))

/-- A trigger decided by the last two rows of R147. -/
def State.takeTrigger (s : State) : State :=
  match s.gate.slot with
  | some p => if s.isStale p then { s with gate.slot := none }.raise .stale else s.startStepped p
  | none => s.raise .trigEmpty

/-- The condition of the third row of R147. -/
def State.mustLatch (s : State) : Bool :=
  decide (s.engine.phase ≠ .idle) || s.resolver.context.isSome || decide (s.gate.mode = .halt)

/-- A latched trigger re-examined (R149). -/
def State.reexamine (s : State) : State :=
  if s.gate.latch && !s.mustLatch then { s with gate.latch := false }.takeTrigger else s

/-- A trigger arriving at the gate: a TRIG edge or an APPLY internal trigger (R147). -/
def State.trigger (s : State) : State :=
  if s.control.mode ≠ .run then s
  else if s.gate.latch then s.raise .trigOverrun
  else if s.mustLatch then
    { s with gate.latch := true, gate.slot := s.gate.slot.map (fun p => { p with bound := true }) }
  else s.takeTrigger

/-- Step 7 of a completion, when the engine has become IDLE (R113, R149). -/
def State.toldIdle (s : State) : State := if s.engine.phase = .idle then s.reexamine else s

/-- The engine goes on by R103 after a phase or a wave, with step 7 of a completion (R103, R112, R113). -/
def State.advance (s : State) : State := s.enterPhase.toldIdle

/-- A transition started by a recovery operation, or resumed: R103 from its first row (R134, R136, R137). -/
def State.launch (s : State) : State := s.beginPhases.toldIdle

/-! ### Cancelling a resolution (R63, R64) -/

/-- The result record of a cancelled resolution (R63). -/
def cancelledResult (ctx : Resolution) : ResultRecord :=
  { ResultRecord.initial with
    outcome := .cancelled, action := ctx.action, mode := ctx.mode, routeSet := ctx.routeSet,
    effective := ctx.effective, baseNumber := ctx.baseNumber }

/-- A resolution in flight cancelled: steps 2 to 4 of R63. -/
def State.cancelResolution (s : State) : State :=
  match s.resolver.context with
  | none => s
  | some ctx =>
    ({ s with resolver := { context := none, result := cancelledResult ctx } }.reexamine).raise .resolveFail

/-! ### Suspension and lockout (R130, R140) -/

/-- Entry into SUSPENDED (R130). -/
def State.suspend (s : State) (reason : SuspendReason) : State :=
  let stopped :=
    { s with
      engine.quiet := 0, engine.guardWait := none, engine.suspension := reason,
      engine.suspendedPhase := some s.engine.phase.faultPhase, engine.abortNoted := false,
      engine.phase := .suspended }
  (stopped.raise .suspend).gateSuspended

/-- Entry into LOCKED_OUT (R140). -/
def State.lockOut (s : State) : State :=
  let opened :=
    { s with
      engine.quiet := 0, engine.guardWait := none,
      coil.coilEnable := false, coil.wave := none, coil.exchanges := [],
      engine.actual := [], engine.pendingOpen := [], engine.pendingClose := [],
      engine.holdings := [], engine.baseMap := [],
      engine.transition := none, engine.abortNoted := false, engine.phase := .lockout,
      engine.suspension := .none, engine.suspendedPhase := none,
      control.mode := .lockedOut,
      gate.slot := none, gate.latch := false }
  opened.cancelResolution.raise .lockout

/-! ### The wave in the coil chain unit (R87 to R92, R110 to R112) -/

/-- The exchange state of a chain (R86). -/
def State.exchange (s : State) (c : Nat) : Exchange := s.coil.exchanges.get .idle c

/-- The exchange state of a chain replaced. -/
def State.setExchange (s : State) (c : Nat) (x : Exchange) : State :=
  { s with coil.exchanges := s.coil.exchanges.put .idle c x }

/-- The relays of a wave on chain `c` with status `st`, ascending. -/
def Wave.withStatus (w : Wave) (c : Nat) (st : RelayStatus) : List Nat :=
  (w.relays.filter (fun r => decide (r.relay / 128 = c ∧ r.status = st))).map WaveRelay.relay

/-- The relays of a wave still SENSING, on any chain. -/
def Wave.sensing (w : Wave) : List WaveRelay := w.relays.filter (fun r => decide (r.status = .sensing))

/-- The chains a wave touches (R84). -/
def Wave.chains (w : Wave) : List Nat := touchedChains (w.relays.map WaveRelay.relay)

/-- A wave with status `st` given to the relays in `rs`. -/
def Wave.mark (w : Wave) (rs : List Nat) (st : RelayStatus) : Wave :=
  { w with relays := w.relays.map (fun r => if r.relay ∈ rs then { r with status := st } else r) }

/-- The relays in `rs` recorded UNKNOWN; they stay pending (R111). -/
def State.markUnknown (s : State) (rs : List Nat) : State :=
  { s with engine.actual := rs.foldl (fun t r => t.put .opened r .unknown) s.engine.actual }

/-- Whether the transition in flight or suspended is HOT (R106). -/
def State.isHot (s : State) : Bool :=
  match s.engine.transition with
  | some t => t.hot
  | none => false

/-- The confirmation of relay `r` in its new state (R110). -/
def State.confirm (s : State) (close : Bool) (r : Nat) : State :=
  { s with
    engine.actual := s.engine.actual.put .opened r (if close then .closed else .opened),
    engine.pendingOpen := s.engine.pendingOpen.filter (fun x => x ≠ r),
    engine.pendingClose := s.engine.pendingClose.filter (fun x => x ≠ r) }.addWear
      r (wearWeight s.isHot close s.control.params.hotWeight)

/-- Whether the confirmation of `r` would hand on a notice (R80). -/
def State.wouldNotify (s : State) (close : Bool) (r : Nat) : Bool :=
  let b0 := (s.wearOf r).count
  let b1 := addedWear b0 (wearWeight s.isHot close s.control.params.hotWeight)
  crosses (warnThreshold (s.classOf r)) b0 b1 || crosses (retireThreshold (s.classOf r)) b0 b1

/-- A relay put into a list before the first relay it is confirmed before. -/
def insertConfirm (drawn r : Nat) : List Nat → List Nat
  | [] => [r]
  | x :: xs => if Config.confirmBefore drawn r x then r :: x :: xs else x :: insertConfirm drawn r xs

/-- The order in which relays confirmed together are taken. FREE where two or more of them hand on notices, and where a READ
that is being filled may show it (log 6); otherwise every order has the same effect, and the ascending one is taken. -/
def State.confirmOrder (s : State) (close : Bool) (rs : List Nat) : List Nat :=
  if (rs.filter (fun r => s.wouldNotify close r)).length ≤ 1 ∧ s.ring.reading = none then rs
  else rs.foldl (fun l r => insertConfirm s.free r l) []

/-- The relays in `rs` confirmed, one by one. Each confirmation is an event of its own, after which a READ that is being
filled may take words (R90, R110, R116). -/
def State.confirmAll (s : State) (close : Bool) (rs : List Nat) : State :=
  (s.confirmOrder close rs).foldl (fun t r => (t.confirm close r).fillOn) { s with free := s.free + 1 }

/-- The end-of-wave report: every chain returns to IDLE, the wave record is discarded, and the engine suspends, locks
out or goes on (R92, R112, R129, R139, R140). -/
def State.endWave (s : State) (w : Wave) : State :=
  let ended := { s with coil.wave := none, coil.exchanges := [] }
  if w.failed then
    match s.engine.transition with
    | some { kind := .safeOpen, .. } => ended.lockOut
    | _ => ended.suspend .fault
  else if s.engine.abortNoted then ended.suspend .aborted
  else ended.advance

/-- A chain failure in wave `w`: the relays in `rs` become CHAIN_FAILED and UNKNOWN, and a CHAIN fault is recorded
(R87, R89, R111). -/
def State.chainFails (s : State) (w : Wave) (c : Fin 8) (rs : List Nat) : State :=
  ({ s with
      coil.wave := some { w.mark rs .chainFailed with failed := true },
      coil.exchanges := s.coil.exchanges.put .idle c.val .failed }.markUnknown rs).fault
    .chain (if w.close then .closing else .opening) (some c) rs

/-- The largest sense timeout among relays still SENSING (R90). -/
def senseDeadline (rs : List WaveRelay) : Nat := rs.foldl (fun m r => max m r.senseTimeout) 0

/-- Whether a chain is making a write exchange (R86). -/
def Exchange.isWriting : Exchange → Bool
  | .writing _ _ => true
  | .idle | .latched | .sensing _ _ | .senseInterval | .done | .failed => false

/-- Whether a chain has a sense exchange in flight (R91). -/
def Exchange.inFlight : Exchange → Bool
  | .sensing _ _ => true
  | .idle | .writing _ _ | .latched | .senseInterval | .done | .failed => false

/-- The end of a sense period with relays still SENSING: one CONTACT failure, and the end of the wave (R91, R111,
R126). -/
def State.contactFails (s : State) (w : Wave) : State :=
  let rs := w.sensing.map WaveRelay.relay
  let marked := { w.mark rs .contactFailed with failed := true }
  let faulted :=
    ({ s with coil.wave := some marked }.markUnknown rs).fault .contact (if w.close then .closing else .opening) none rs
  (rs.foldl (fun t r => t.degrade r) faulted).endWave marked

/-- The sense period of the wave looked at again, after an exchange has ended or the deadline has been reached
(R90, R91). -/
def State.senseProgress (s : State) (reachedNow : Bool) : State :=
  match s.coil.wave with
  | some w =>
    match w.stage with
    | .sensing _ reached =>
      if w.sensing = [] then s.endWave w
      else
        let deadline := senseDeadline w.sensing
        let passed := reached || reachedNow || decide (deadline = 0)
        let w' := { w with stage := .sensing deadline passed }
        if passed && !(w.chains.any (fun c => (s.exchange c).inFlight)) then s.contactFails w'
        else { s with coil.wave := some w' }
    | .writing | .timedWait => s
  | none => s

/-- The timed wait of the wave ends (R90, R109). -/
def State.endTimedWait (s : State) (w : Wave) : State :=
  let latched := w.relays.filter (fun r => decide (r.status = .latched))
  let timed := (latched.filter (fun r => decide (r.mode = .timed))).map WaveRelay.relay
  let sensed := (latched.filter (fun r => decide (r.mode = .sensed))).map WaveRelay.relay
  let marked := (w.mark timed .confirmed).mark sensed .sensing
  let chains := w.chains.filter (fun c => decide (s.exchange c = .latched))
  let exchanges :=
    chains.foldl (fun t c =>
      t.put .idle c (if sensed.any (fun r => decide (r / 128 = c)) then .sensing 1 .shifting else .done))
      s.coil.exchanges
  let staged := { marked with stage := .sensing (senseDeadline marked.sensing) false }
  ({ s with coil.wave := some staged, coil.exchanges := exchanges }.confirmAll w.close timed).senseProgress false

/-- The wave looked at again after a chain has left WRITING: when every touched chain has, the timed wait begins if at
least one is LATCHED, and otherwise the wave ends. A wave time of 0 ends the wait at once (R88, R109; log 14). -/
def State.writeProgress (s : State) : State :=
  match s.coil.wave with
  | some w =>
    if w.chains.any (fun c => (s.exchange c).isWriting) then s
    else if w.chains.any (fun c => decide (s.exchange c = .latched)) then
      let waiting := { w with stage := .timedWait }
      if w.time = 0 then s.endTimedWait waiting
      else { s with coil.wave := some waiting }
    else s.endWave w
  | none => s

/-- A write attempt `n` of chain `c` has failed: the next begins at once, or the exchange fails (R85 to R87). -/
def State.writeAttemptFails (s : State) (c : Fin 8) (n : Nat) : State :=
  if n < 3 then s.setExchange c (.writing (n + 1) .shifting)
  else
    match s.coil.wave with
    | some w => (s.chainFails w c (w.withStatus c .writing)).writeProgress
    | none => s

/-- A sense attempt `n` of chain `c` has failed: the next begins, or the exchange fails (R89). -/
def State.senseAttemptFails (s : State) (c : Fin 8) (n : Nat) : State :=
  if n < 3 then s.setExchange c (.sensing (n + 1) .shifting)
  else
    match s.coil.wave with
    | some w => (s.chainFails w c (w.withStatus c .sensing)).senseProgress false
    | none => s

/-- A write exchange of chain `c` has matched: the chain and its relays are LATCHED (R86, R88; log 16). -/
def State.chainLatches (s : State) (c : Fin 8) : State :=
  match s.coil.wave with
  | some w =>
    ({ s with coil.wave := some (w.mark (w.withStatus c .writing) .latched) }.setExchange c .latched).writeProgress
  | none => s

/-- The relays of a wave on chain `c` that a completed sense exchange examines: those SENSING, but one of sense timeout 0
only once (R90, R91). -/
def Wave.examined (w : Wave) (c : Nat) : List Nat :=
  (w.relays.filter (fun r => decide (r.relay / 128 = c ∧ r.status = .sensing ∧ r.spent = false))).map WaveRelay.relay

/-- A wave with each relay in `rs` of sense timeout 0 marked as having had its one read (R91). -/
def Wave.spend (w : Wave) (rs : List Nat) : Wave :=
  { w with relays := w.relays.map (fun r => if r.relay ∈ rs ∧ r.senseTimeout = 0 then { r with spent := true } else r) }

/-- A sense exchange of chain `c` has matched, with the contact states `made`: the relays that match are confirmed, and
the chain waits out an interval while a relay of it is SENSING (R89 to R91). -/
def State.senseCompletes (s : State) (c : Fin 8) (made : Image) : State :=
  match s.coil.wave with
  | some w =>
    let matching := (w.examined c).filter (fun r => decide (made.getLsbD (r % 128) = w.close))
    let missed := (w.examined c).filter (fun r => decide (made.getLsbD (r % 128) ≠ w.close))
    let taken := (w.mark matching .confirmed).spend missed
    (({ s with coil.wave := some taken }.confirmAll w.close matching).setExchange c
      (if taken.withStatus c .sensing = [] then .done else .senseInterval)).senseProgress false
  | none => s

/-! ### Resets (R193, R194) -/

/-- Whether a source begins a hard reset (R193). -/
def ResetSource.isHard : ResetSource → Bool
  | .powerOn | .rstn => true
  | .softFrame | .linkLoss => false

/-- What a hard reset sets and a soft reset keeps: topology tables, route store, wear records, notice list and CONFIG
parameters (R18, R35, R168, R188, R194). -/
def State.hardValues (s : State) : State :=
  { s with
    topology := .initial, store := .initial, wear := .initial,
    control.params := .initial s.control.params.arbitration }

/-- What every reset sets at its start (R65, R94, R120, R180, R194). -/
def State.softValues (s : State) : State :=
  { s with
    control.mode := .configure,
    ring.cursor := none,
    resolver := .initial,
    gate := .initial,
    engine := .initial,
    coil := { images := [], exchanges := [], wave := none, coilEnable := false },
    alerts.pending := 0 }

/-- The start of a reset from `source` (R193, R194). -/
def State.beginReset (s : State) (source : ResetSource) (linkLost : Bool) : State :=
  let started := { s with control.resetting := some { source := source, linkLost := linkLost } }.softValues
  if source.isHard then started.hardValues else started

/-- Whether the reset in progress may end once the chains are cleared: RSTN is high, and lock has returned where link
loss began the reset or was recorded in it (R193; log 9). -/
def State.mayEndReset (s : State) (r : ResetRun) : Bool :=
  !s.control.rstnLow && !((decide (r.source = .linkLoss) || r.linkLost) && s.control.lockLost)

/-- The reset record at the end of a reset (R194). -/
def endedRecord (old : ResetRecord) (r : ResetRun) : ResetRecord :=
  let base :=
    match r.source with
    | .powerOn => { ResetRecord.clear with powerOn := true }
    | .rstn => { ResetRecord.clear with rstn := true }
    | .softFrame => { old with softFrame := true }
    | .linkLoss => { old with linkLoss := true }
  { base with linkLoss := base.linkLoss || r.linkLost }

/-- The end of a reset (R194); the link-loss timer starts anew when lock is still lost (R193). -/
def State.finishReset (s : State) (r : ResetRun) (straps : BitVec 4) : State :=
  let sampled :=
    if r.source.isHard then
      { s with ring.address := straps, control.params.arbitration := straps }
    else s
  { sampled with
    coil.coilEnable := true,
    control.resetting := none,
    control.resetRecord := endedRecord s.control.resetRecord r,
    control.linkTimer := s.control.lockLost }.raise .reset

end Sys2Proof.Machine
end

