-- ==== Sys2Proof/Machine/Resolve.lean ====
section
/-! DEFINITION. The resolver: the target, the net check, the delta and the plan (chapter 3). -/

namespace Sys2Proof.Machine

/-- Every owner in ascending order (R26). -/
def allOwners : List Owner :=
  [.site 0, .site 1, .site 2, .site 3, .site 4, .site 5, .site 6, .site 7, .common]

/-- Whether an owner mask names an owner (R26). -/
def maskHas (mask : BitVec 9) (o : Owner) : Bool := mask.getLsbD o.bit

/-- The effective mask: the requested mask less every disabled site (R39). -/
def State.effectiveMask (s : State) (mask : BitVec 9) : BitVec 9 :=
  (List.range 8).foldl
    (fun m k => if s.topology.sites.get false k then m else m &&& ~~~(1#9 <<< k)) mask

/-- The holdings with every relay of every owner in the mask set to NONE (R30, R32). -/
def dropMasked (h : Holdings) (mask : BitVec 9) : Holdings :=
  h.filter (fun e =>
    match e.2 with
    | some o => !maskHas mask o
    | none => true)

/-- The starting target of a step (R30 to R32). -/
def startingTarget (mode : StepMode) (base : Holdings) (effective : BitVec 9) : Holdings :=
  match mode with
  | .replace | .clear => dropMasked base effective
  | .add => base

/-- The retired test (R42). -/
def State.retiredPasses (s : State) (ctx : Resolution) (o : Owner) (r : Nat) : Bool :=
  decide ((s.wearOf r).health ≠ .retired) || decide (ownerOf ctx.base r = some o)

/-- The retired test and then the owner test on relay `r`, which an entry would give to `o` (R42, R43). -/
def State.testRelay (s : State) (ctx : Resolution) (o : Owner) (index : Nat) (t : Holdings) (r : Nat) :
    Except Conflict Unit :=
  if s.retiredPasses ctx o r then
    match ownerOf t r with
    | none => .ok ()
    | some x =>
      if x = o then .ok ()
      else
        .error
          { Conflict.bare .overlap with
            owner := some o, entryIndex := some index, relay := some r, holder := some x }
  else .error { Conflict.bare .retired with owner := some o, entryIndex := some index, relay := some r }

/-- Relay `r` given to `o` in the target under construction. -/
def give (t : Holdings) (o : Owner) (r : Nat) : Holdings := t.put none r (some o)

/-- The two relays of a PATH entry given to `o`, once both have passed both tests (R44, R45). -/
def State.givePair (s : State) (ctx : Resolution) (o : Owner) (index : Nat) (t : Holdings) (pin port : Nat) :
    Except Conflict Holdings :=
  match s.testRelay ctx o index t pin with
  | .error c => .error c
  | .ok () =>
    match s.testRelay ctx o index t port with
    | .error c => .error c
    | .ok () => .ok (give (give t o pin) o port)

/-- A PATH entry with fixed trunk `k` between pin line `p` and port node `q` (R45). -/
def State.applyFixed (s : State) (ctx : Resolution) (o : Owner) (index : Nat) (t : Holdings) (p q k : Nat) :
    Except Conflict Holdings :=
  match s.pairLookup p (64 + k), s.pairLookup (64 + k) q with
  | none, _ =>
    .error
      { Conflict.bare .unroutable with
        owner := some o, entryIndex := some index, node1 := some p, node2 := some (64 + k) }
  | some _, none =>
    .error
      { Conflict.bare .unroutable with
        owner := some o, entryIndex := some index, node1 := some (64 + k), node2 := some q }
  | some pin, some port => s.givePair ctx o index t pin port

/-- Whether relay `r` passes both tests inside the AUTO trunk choice (R46). -/
def State.passes (s : State) (ctx : Resolution) (o : Owner) (t : Holdings) (r : Nat) : Bool :=
  s.retiredPasses ctx o r && (decide (ownerOf t r = none) || decide (ownerOf t r = some o))

/-- The relays of trunk `k` when the first pass of the AUTO choice takes it (R46). -/
def State.reuseTrunk (s : State) (ctx : Resolution) (o : Owner) (t : Holdings) (p q k : Nat) : Option (Nat × Nat) :=
  match s.pairLookup (64 + k) q, s.pairLookup p (64 + k) with
  | some port, some pin => if ownerOf t port = some o ∧ s.passes ctx o t pin then some (pin, port) else none
  | _, _ => none

/-- Whether no relay that touches node `n` is given to any owner (R46). -/
def State.untouched (s : State) (t : Holdings) (n : Nat) : Bool :=
  t.all (fun e => e.2.isNone || decide ((s.relay e.1).a.toNat ≠ n ∧ (s.relay e.1).b.toNat ≠ n))

/-- The relays of trunk `k` when the second pass of the AUTO choice takes it (R46). -/
def State.freshTrunk (s : State) (ctx : Resolution) (o : Owner) (t : Holdings) (p q k : Nat) : Option (Nat × Nat) :=
  match s.pairLookup p (64 + k), s.pairLookup (64 + k) q with
  | some pin, some port =>
    if s.untouched t (64 + k) ∧ s.retiredPasses ctx o pin ∧ s.retiredPasses ctx o port then some (pin, port) else none
  | _, _ => none

/-- The relays the AUTO trunk choice takes: the first pass, then the second, over trunks 0 to 15 (R46). -/
def State.autoTrunk (s : State) (ctx : Resolution) (o : Owner) (t : Holdings) (p q : Nat) : Option (Nat × Nat) :=
  match (List.range 16).findSome? (fun k => s.reuseTrunk ctx o t p q k) with
  | some pair => some pair
  | none => (List.range 16).findSome? (fun k => s.freshTrunk ctx o t p q k)

/-- A PATH entry with an AUTO trunk (R46). -/
def State.applyAuto (s : State) (ctx : Resolution) (o : Owner) (index : Nat) (t : Holdings) (p q : Nat) :
    Except Conflict Holdings :=
  match s.autoTrunk ctx o t p q with
  | some (pin, port) => .ok (give (give t o pin) o port)
  | none =>
    .error
      { Conflict.bare .noTrunk with owner := some o, entryIndex := some index, node1 := some p, node2 := some q }

/-- A PATH entry applied for site `site` (R44). -/
def State.applyPath (s : State) (ctx : Resolution) (site : Fin 8) (index : Nat) (t : Holdings) (pin : BitVec 5)
    (port : BitVec 4) (trunk : Trunk) : Except Conflict Holdings :=
  match s.topology.pinMap.get none (site.val * 32 + pin.toNat), s.topology.portMap.get none (site.val * 16 + port.toNat) with
  | some p, some i =>
    match trunk with
    | .fixed k => s.applyFixed ctx (.site site) index t p.toNat (80 + i.toNat) k.toNat
    | .auto => s.applyAuto ctx (.site site) index t p.toNat (80 + i.toNat)
  | _, _ => .error { Conflict.bare .unmapped with owner := some (.site site), entryIndex := some index }

/-- A DIRECT entry applied for COMMON (R47). -/
def State.applyDirect (s : State) (ctx : Resolution) (index : Nat) (t : Holdings) (r : Nat) : Except Conflict Holdings :=
  if (s.relay r).present then
    match s.testRelay ctx .common index t r with
    | .error c => .error c
    | .ok () => .ok (give t .common r)
  else
    .error { Conflict.bare .unroutable with owner := some .common, entryIndex := some index, relay := some r }

/-- Pool entry `index` applied for owner `o`: a PATH for a site, a DIRECT for COMMON; the other kind is skipped (R41). -/
def State.applyEntry (s : State) (ctx : Resolution) (o : Owner) (t : Holdings) (index : Nat) : Except Conflict Holdings :=
  match s.store.pool.get .initial index, o with
  | .path pin port trunk, .site site => s.applyPath ctx site index t pin port trunk
  | .direct r, .common => s.applyDirect ctx index t r.toNat
  | .path _ _ _, .common => .ok t
  | .direct _, .site _ => .ok t

/-- A list of pool entries applied for one owner, in order; the first that fails ends it (R41). -/
def State.applyEntries (s : State) (ctx : Resolution) (o : Owner) : List Nat → Holdings → Except Conflict Holdings
  | [], t => .ok t
  | i :: is, t =>
    match s.applyEntry ctx o t i with
    | .error c => .error c
    | .ok t' => s.applyEntries ctx o is t'

/-- The set's entries applied for each owner in order (R41). -/
def State.applyOwners (s : State) (ctx : Resolution) (run : List Nat) :
    List Owner → Holdings → Except Conflict Holdings
  | [], t => .ok t
  | o :: os, t =>
    match s.applyEntries ctx o run t with
    | .error c => .error c
    | .ok t' => s.applyOwners ctx run os t'

/-- The pool indices of the run in use, ascending; none for CLEAR (R34, R41). -/
def Resolution.run (ctx : Resolution) : List Nat :=
  match ctx.inUse with
  | some u => (List.range u.count).map (fun k => u.first + k)
  | none => []

/-- The target before the net check: the set's entries applied to the starting target (R41). -/
def State.buildTarget (s : State) (ctx : Resolution) : Except Conflict Holdings :=
  s.applyOwners ctx ctx.run (allOwners.filter (fun o => maskHas ctx.effective o)) ctx.target

/-- The open set O: held in the base and not in the target (R51). -/
def openSet (base target : Holdings) : List Nat :=
  (base.filter (fun e => e.2.isSome && (ownerOf target e.1).isNone)).map Prod.fst

/-- The listed relays of `target` whose owner in the base meets `p`, each with its owner in the target. -/
def ownedWhere (target : Holdings) (p : Nat → Owner → Bool) : List (Nat × Owner) :=
  target.filterMap (fun e =>
    match e.2 with
    | some o => if p e.1 o then some (e.1, o) else none
    | none => none)

/-- The close set C with its owners: held in the target and not in the base (R51). -/
def closeSet (base target : Holdings) : List (Nat × Owner) :=
  ownedWhere target (fun r _ => (ownerOf base r).isNone)

/-- The reassigned relays: held by one owner in the base and by another in the target (R51). -/
def reassignedSet (base target : Holdings) : List (Nat × Owner) :=
  ownedWhere target (fun r o => (ownerOf base r).isSome && decide (ownerOf base r ≠ some o))

/-- Whether node `n` lies in a net that contains an endpoint of one of the relays (R52). -/
def State.sharesNet (s : State) (labels : List Nat) (relays : List Nat) (n : Nat) : Bool :=
  relays.any (fun r =>
    decide (labelOf labels (s.relay r).a.toNat = labelOf labels n ∨
      labelOf labels (s.relay r).b.toNat = labelOf labels n))

/-- The guarded port set of a plan (R52). -/
def State.guardSet (s : State) (base target : Holdings) (opens closes : List Nat) : BitVec 24 :=
  let before := s.netLabels base
  let after := s.netLabels target
  (List.range 24).foldl
    (fun m k =>
      if s.isGuarded k && (s.sharesNet before opens (80 + k) || s.sharesNet after closes (80 + k)) then
        m ||| (1#24 <<< k)
      else m) 0

/-- The plan that carries the base holdings to a target that has passed (R51 to R55). -/
def State.planFor (s : State) (ctx : Resolution) (target : Holdings) : Plan :=
  let opens := openSet ctx.base target
  let closes := closeSet ctx.base target
  let closing := closes.map Prod.fst
  { routeSet := ctx.routeSet, action := ctx.action, stop := ctx.stop, baseNumber := ctx.baseNumber,
    opens := opens, closes := closes, reassigned := reassignedSet ctx.base target,
    waveLimit := ctx.waveLimit, openWaves := (wavesOf ctx.waveLimit opens).length,
    closeWaves := (wavesOf ctx.waveLimit closing).length,
    guarded := s.guardSet ctx.base target opens closing,
    duration := s.wavesTime false ctx.waveLimit opens + s.wavesTime true ctx.waveLimit closing,
    bound := false }

/-- The work of a resolution: a plan, or the first thing that stood in the way (R39, R41, R48, R51). -/
def State.resolve (s : State) (ctx : Resolution) : Except Conflict Plan :=
  if ctx.usable then
    match s.buildTarget ctx with
    | .error c => .error c
    | .ok target =>
      match s.netCheck target with
      | some c => .error c
      | none => .ok (s.planFor ctx target)
  else .error (.bare .badSet)

/-- The result record of a resolution that failed (R56). -/
def failedResult (ctx : Resolution) (c : Conflict) : ResultRecord :=
  { ResultRecord.initial with
    outcome := c.outcome, action := ctx.action, mode := ctx.mode, routeSet := ctx.routeSet,
    effective := ctx.effective, baseNumber := ctx.baseNumber, owner := c.owner, entryIndex := c.entryIndex,
    node1 := c.node1, node2 := c.node2, relay := c.relay, holder := c.holder, net := c.net }

/-- The result record of a resolution that succeeded (R56). -/
def okResult (ctx : Resolution) (p : Plan) (replaced : Bool) : ResultRecord :=
  { ResultRecord.initial with
    outcome := .ok, action := ctx.action, mode := ctx.mode, routeSet := ctx.routeSet, effective := ctx.effective,
    baseNumber := ctx.baseNumber, openCount := p.opens.length, closeCount := p.closes.length,
    openWaves := p.openWaves, closeWaves := p.closeWaves, reassignedCount := p.reassigned.length,
    duration := p.duration, guarded := p.guarded, replaced := replaced }

/-- Whether the action hands its plan to the staging slot (R58). -/
def Action.stages : Action → Bool
  | .check => false
  | .stage | .apply => true

/-- The plan placed in the staging slot, bound if the latch is full (R59). -/
def State.stagePlan (s : State) (p : Plan) : State :=
  { s with gate.slot := some { p with bound := s.gate.latch } }

/-- The result record written, the set in use released, the resolver IDLE and the gate told: steps 1 to 3 of R58 without
the hand-off. -/
def State.endResolution (s : State) (r : ResultRecord) : State :=
  { s with resolver := { context := none, result := r } }.reexamine

/-- The completion of a resolution, in the order of R58. -/
def State.completeResolution (s : State) (ctx : Resolution) : State :=
  match s.resolve ctx with
  | .error c => (s.endResolution (failedResult ctx c)).raise .resolveFail
  | .ok p =>
    let staged := if ctx.action.stages then s.stagePlan p else s
    let replaced := ctx.action.stages && s.gate.slot.isSome
    let told := (staged.endResolution (okResult ctx p replaced)).raise .resolved
    if ctx.action = .apply then told.trigger else told

/-- The context fixed at the acceptance of a STEP (R36 to R39). -/
def State.contextFor (s : State) (a : StepArg) (mode : StepMode) (action : Action) : Resolution :=
  let entry := s.store.directory.get .initial a.routeSet.toNat
  let reads := decide (mode ≠ .clear)
  let usable := entry.defined && decide (entry.first.toNat + entry.count.toNat ≤ 2048)
  { routeSet := a.routeSet, requested := a.owners, mode := mode, action := action,
    base := s.engine.holdings,
    baseNumber := if s.engine.phase = .idle then s.engine.lastCompleted else s.engine.current,
    effective := s.effectiveMask a.owners, waveLimit := s.control.params.waveLimit,
    usable := usable || !reads, stop := reads && entry.stop,
    inUse :=
      if reads then
        some
          { dir := a.routeSet.toNat, first := entry.first.toNat, count := if usable then entry.count.toNat else 0 }
      else none,
    target := startingTarget mode s.engine.holdings (s.effectiveMask a.owners) }

/-- The examination of a STEP whose action is valid (R37). -/
def State.acceptStep (s : State) (a : StepArg) (action : Action) : Handled :=
  match s.control.mode with
  | .lockedOut => .refuse .lockedOut s
  | .configure => .refuse .wrongMode s
  | .run =>
    match StepMode.ofCode a.mode with
    | none => .refuse .badArgument s
    | some mode =>
      if s.resolver.context.isSome then .busy .resolving s
      else if action.stages && s.gate.slot.any (fun p => p.bound) then .busy .bound s
      else
        { answer := .accepted,
          state := { s with resolver.context := some (s.contextFor a mode action) } }

end Sys2Proof.Machine
end

