-- ==== Sys2Proof/Machine/Controls.lean ====
section
/-! DEFINITION. The CONTROL frames (R182) and their operations. -/

namespace Sys2Proof.Machine

/-- The codes of the operations, in the order of R182 (section 10.7). -/
inductive Operation where
  | enterRun | enterConfigure | setGate | abort | resume | rollback | safeOpen | discardStaged | ackAlert | softReset
deriving DecidableEq, Repr

/-- The code of an operation. -/
def Operation.code : Operation → Byte
  | .enterRun => 1
  | .enterConfigure => 2
  | .setGate => 3
  | .abort => 4
  | .resume => 5
  | .rollback => 6
  | .safeOpen => 7
  | .discardStaged => 8
  | .ackAlert => 9
  | .softReset => 10

/-- A CONTROL frame at the ring port (R182). -/
def State.receiveControl (s : State) (e : Envelope) (a : ControlArg) (op : Operation) (h : Handled) : State :=
  s.receivePlain kindControl (controlArgWord a op.code) e h

/-- An operation that LOCKED_OUT refuses (R182). -/
def State.unlessLocked (s : State) (h : Handled) : Handled :=
  if s.control.mode = .lockedOut then .refuse .lockedOut s else h

/-! ### ENTER_RUN (R15 to R17, R186) -/

/-- The failure of one relay map entry (R15). -/
def State.relayFault (s : State) (r : Nat) (e : RelayEntry) : Option ValidationRecord :=
  if e.present then
    if 111 < e.a.toNat ∨ 111 < e.b.toNat ∨ e.a = e.b then some { outcome := .badEndpoints, index := r, related := 0 }
    else if (s.topology.classes.get .initial e.cls.toNat).operate = 0 then
      some { outcome := .badClass, index := r, related := e.cls.toNat }
    else none
  else none

/-- The failure of one class (R68). -/
def State.classFault (s : State) (c : Nat) : Option ValidationRecord :=
  let k := s.topology.classes.get .initial c
  if k.retire.toNat < k.warn.toNat then some { outcome := .classOrder, index := c, related := 0 } else none

/-- The failure of one port table entry (R16). -/
def State.portFault (s : State) (i : Nat) : Option ValidationRecord :=
  let p := s.topology.ports.get .initial i
  if p.guarded ∧ (p.role ≠ .force ∨ 24 ≤ i) then some { outcome := .badGuard, index := i, related := 80 + i } else none

/-- The first pin map entry that names a pin line named by a lower one; `seen` holds the lower mapped entries (R16). -/
def pinFault (seen : List (Nat × BitVec 6)) : Table (Option (BitVec 6)) → Option ValidationRecord
  | [] => none
  | (_, none) :: t => pinFault seen t
  | (i, some p) :: t =>
    match seen.find? (fun e => decide (e.2 = p)) with
    | some e => some { outcome := .pinAlias, index := i, related := e.1 }
    | none => pinFault (seen ++ [(i, p)]) t

/-- The validation of the tables: the first failure of the four stages, or OK (R15). -/
def State.validate (s : State) : ValidationRecord :=
  match s.topology.relayMap.findSome? (fun e => s.relayFault e.1 e.2) with
  | some v => v
  | none =>
    match (List.range 16).findSome? (fun c => s.classFault c) with
    | some v => v
    | none =>
      match (List.range 32).findSome? (fun i => s.portFault i) with
      | some v => v
      | none =>
        match pinFault [] s.topology.pinMap with
        | some v => v
        | none => { outcome := .ok, index := 0, related := 0 }

/-- ENTER_RUN taken by the mode (R186). An ENTER_RUN refused for its tables still writes the VALIDATION record (R17). -/
def State.enterRun (s : State) : Handled :=
  match s.control.mode with
  | .lockedOut => .refuse .lockedOut s
  | .run => { answer := .done, state := s }
  | .configure =>
    let v := s.validate
    let recorded := { s with topology.validation := v }
    if v.outcome = .ok then { answer := .done, state := { recorded with control.mode := .run } }
    else { answer := .refused .invalidTables, state := recorded }

/-- ENTER_RUN (R186). -/
def execEnterRun (e : Envelope) (a : ControlArg) (s : State) : Host.Outcome State Fault Refusal :=
  .next (s.finishRead.receiveControl e a .enterRun s.finishRead.enterRun)

/-! ### ENTER_CONFIGURE (R187) -/

/-- ENTER_CONFIGURE: mode, resolver, engine, holdings and slot (R187). -/
def State.enterConfigure (s : State) : Handled :=
  match s.control.mode with
  | .lockedOut => .refuse .lockedOut s
  | .configure => { answer := .done, state := s }
  | .run =>
    if s.resolver.context.isSome then .busy .resolving s
    else if s.engine.phase ≠ .idle then .refuse .notEmpty s
    else if s.engine.holdings.any (fun e => e.2.isSome) then .refuse .notEmpty s
    else if s.gate.slot.isSome then .refuse .notEmpty s
    else { answer := .done, state := { s with gate.latch := false, control.mode := .configure } }

/-- ENTER_CONFIGURE (R187). -/
def execEnterConfigure (e : Envelope) (a : ControlArg) (s : State) : Host.Outcome State Fault Refusal :=
  .next (s.finishRead.receiveControl e a .enterConfigure s.finishRead.enterConfigure)

/-! ### SET_GATE, DISCARD_STAGED (R145, R155) -/

/-- A taken SET_GATE naming mode `m` (R155). -/
def State.setGateMode (s : State) (m : GateMode) : State :=
  if m = .halt then s.haltGate .command
  else if s.gate.mode = .halt then { s with gate.mode := m, gate.reason := .none }.reexamine
  else { s with gate.mode := m }

/-- SET_GATE by its operand (R155). -/
def State.setGate (s : State) (operand : BitVec 16) : Handled :=
  s.unlessLocked
    (match GateMode.ofOperand operand with
      | none => .refuse .badArgument s
      | some m => { answer := .done, state := s.setGateMode m })

/-- SET_GATE (R155). -/
def execSetGate (e : Envelope) (a : ControlArg) (s : State) : Host.Outcome State Fault Refusal :=
  .next (s.finishRead.receiveControl e a .setGate (s.finishRead.setGate a.operand))

/-- DISCARD_STAGED: slot and latch emptied together (R145). -/
def State.discardStaged (s : State) : Handled :=
  s.unlessLocked { answer := .done, state := { s with gate.slot := none, gate.latch := false } }

/-- DISCARD_STAGED (R145). -/
def execDiscardStaged (e : Envelope) (a : ControlArg) (s : State) : Host.Outcome State Fault Refusal :=
  .next (s.finishRead.receiveControl e a .discardStaged s.finishRead.discardStaged)

/-! ### ABORT (R127 to R129) -/

/-- ABORT by the engine's state (R127 to R129). -/
def State.abort (s : State) : Handled :=
  s.unlessLocked
    (match s.engine.phase with
      | .guarding => { answer := .accepted, state := s.suspend .aborted }
      | .opening | .closing => { answer := .accepted, state := { s with engine.abortNoted := true } }
      | .idle | .suspended | .lockout => .refuse .nothingInFlight s)

/-- ABORT (R127). -/
def execAbort (e : Envelope) (a : ControlArg) (s : State) : Host.Outcome State Fault Refusal :=
  .next (s.finishRead.receiveControl e a .abort s.finishRead.abort)

/-! ### RESUME, ROLLBACK, SAFE_OPEN (R63, R133 to R138) -/

/-- The suspended transition resumed (R134). -/
def State.resumeTransition (s : State) (t : Transition) : State :=
  State.launch
    { s with
      engine.suspension := .none, engine.suspendedPhase := none,
      engine.transition := some { t with hot := false } }

/-- RESUME (R133). -/
def State.resume (s : State) : Handled :=
  s.unlessLocked
    (match s.engine.phase, s.engine.transition with
      | .suspended, some t => { answer := .accepted, state := s.resumeTransition t }
      | _, _ => .refuse .notSuspended s)

/-- RESUME (R134). -/
def execResume (e : Envelope) (a : ControlArg) (s : State) : Host.Outcome State Fault Refusal :=
  .next (s.finishRead.receiveControl e a .resume s.finishRead.resume)

/-- The open set of a rollback: CLOSED or UNKNOWN, and not held in the base owner map (R135). -/
def State.rollbackOpens (s : State) : List Nat :=
  (s.engine.actual.filter (fun e =>
    decide (e.2 ≠ .opened) && decide (Table.get none s.engine.baseMap e.1 = none))).map Prod.fst

/-- The close set of a rollback: OPEN or UNKNOWN, and held in the base owner map (R135). -/
def State.rollbackCloses (s : State) : List Nat :=
  (s.engine.baseMap.filter (fun e =>
    e.2.isSome && decide (Table.get .opened s.engine.actual e.1 ≠ .closed))).map Prod.fst

/-- The start of a ROLLBACK of suspended transition `t` (R136), and the cancellation of a resolution (R63; DEDUCED, log 31,
for a transition that completes in this event). -/
def State.startRollback (s : State) (t : Transition) : State :=
  State.cancelResolution (State.launch
    { s with
      engine.suspension := .none, engine.suspendedPhase := none,
      engine.current := s.engine.current + 1,
      engine.transition := some
        { kind := .rollback, number := s.engine.current + 1, waveLimit := t.waveLimit, guarded := t.guarded,
          stop := false, hot := false },
      engine.holdings := s.engine.baseMap,
      engine.pendingOpen := s.rollbackOpens,
      engine.pendingClose := s.rollbackCloses })

/-- ROLLBACK (R133): taken only for a suspended STEPPED transition. -/
def State.rollback (s : State) : Handled :=
  s.unlessLocked
    (match s.engine.phase, s.engine.transition with
      | .suspended, some t =>
        if t.kind = .stepped then { answer := .accepted, state := s.startRollback t } else .refuse .badArgument s
      | _, _ => .refuse .notSuspended s)

/-- ROLLBACK (R136). -/
def execRollback (e : Envelope) (a : ControlArg) (s : State) : Host.Outcome State Fault Refusal :=
  .next (s.finishRead.receiveControl e a .rollback s.finishRead.rollback)

/-- The open set of a SAFE_OPEN: every relay CLOSED or UNKNOWN (R137). -/
def State.safeOpens (s : State) : List Nat :=
  (s.engine.actual.filter (fun e => decide (e.2 ≠ .opened))).map Prod.fst

/-- The start of a SAFE_OPEN (R137), and the cancellation of a resolution (R63; DEDUCED, log 31, for a transition that
completes in this event). -/
def State.startSafeOpen (s : State) : State :=
  State.cancelResolution (State.launch
    { s with
      engine.suspension := .none, engine.suspendedPhase := none,
      engine.current := s.engine.current + 1,
      engine.transition := some
        { kind := .safeOpen, number := s.engine.current + 1, waveLimit := s.control.params.waveLimit,
          guarded := s.allGuarded, stop := false, hot := false },
      engine.holdings := [],
      engine.pendingOpen := s.safeOpens,
      engine.pendingClose := [] })

/-- SAFE_OPEN (R133). -/
def State.safeOpen (s : State) : Handled :=
  match s.control.mode with
  | .lockedOut => .refuse .lockedOut s
  | .configure => .refuse .wrongMode s
  | .run =>
    match s.engine.phase with
    | .guarding | .opening | .closing => .busy .engine s
    | .idle | .suspended => { answer := .accepted, state := s.startSafeOpen }
    | .lockout => .refuse .lockedOut s

/-- SAFE_OPEN (R137). -/
def execSafeOpen (e : Envelope) (a : ControlArg) (s : State) : Host.Outcome State Fault Refusal :=
  .next (s.finishRead.receiveControl e a .safeOpen s.finishRead.safeOpen)

/-! ### ACK_ALERT, SOFT_RESET, unnamed operations (R182, R190, R193) -/

/-- ACK_ALERT: the named causes stop being pending, except LOCKOUT; naming RESET clears the reset record (R190). -/
def State.ackAlert (s : State) (operand : BitVec 16) : Handled :=
  let named := operand.extractLsb' 0 14 &&& ~~~(1#14 <<< Cause.lockout.bit)
  { answer := .done,
    state :=
      { s with
        alerts.pending := s.alerts.pending &&& ~~~named,
        control.resetRecord := if operand.getLsbD Cause.reset.bit then .clear else s.control.resetRecord } }

/-- ACK_ALERT (R190). -/
def execAckAlert (e : Envelope) (a : ControlArg) (s : State) : Host.Outcome State Fault Refusal :=
  .next (s.finishRead.receiveControl e a .ackAlert (s.finishRead.ackAlert a.operand))

/-- SOFT_RESET: answered and sent on, and the reset begins once the frame has left (R182, R193). -/
def execSoftReset (e : Envelope) (a : ControlArg) (s : State) : Host.Outcome State Fault Refusal :=
  let t := s.finishRead
  let answered := t.receiveControl e a .softReset { answer := .done, state := t }
  match t.disposition e with
  | .act _ => .next (answered.beginReset .softFrame false)
  | .cutShort | .pass | .clash | .badLength _ => .next answered

/-- CONTROL_BAD_OPERATION: the operation code is checked first, in every mode (R182). -/
def execControlBadOperation (e : Envelope) (a : ControlArg) (operation : Byte) (s : State) :
    Host.Outcome State Fault Refusal :=
  .next (s.finishRead.receivePlain kindControl (controlArgWord a operation) e (.refuse .badArgument s.finishRead))

end Sys2Proof.Machine
end

