-- ==== Sys2Proof/Machine/Events.lean ====
section
/-! DEFINITION. The trigger, the guard wait's ends, and the events of the coil chains (R85 to R91, R105, R146). -/

namespace Sys2Proof.Machine

/-- TRIG_EDGE: a rising edge of TRIG (R146, R147). -/
def execTrigEdge (s : State) : Host.Outcome State Fault Refusal := .next s.trigger.fillOn

/-- QACK_HIGH: during a guard wait the guard is satisfied; at any other time nothing changes (R105). -/
def execQackHigh (s : State) : Host.Outcome State Fault Refusal :=
  .next <| State.fillOn <|
    if s.engine.phase = .guarding then s.advance else s

/-- A guard timeout that proceeds: the transition is HOT and GUARD_BYPASS is raised (R105, R106, R138). -/
def State.bypassGuard (s : State) (t : Transition) : State :=
  (State.raise { s with engine.transition := some { t with hot := true } } .guardBypass).advance

/-- GUARD_TIMEOUT: a SAFE_OPEN always proceeds; otherwise the policy kept for this wait decides (R105, R138). With no
guard wait there is no timeout, and nothing changes. -/
def execGuardTimeout (s : State) : Host.Outcome State Fault Refusal :=
  .next <| State.fillOn <|
    match s.engine.phase, s.engine.transition, s.engine.guardWait with
    | .guarding, some t, some g =>
      if t.kind = .safeOpen ∨ g.policy = .proceed then s.bypassGuard t
      else (s.fault .guardTimeout .guard none []).suspend .fault
    | _, _, _ => s

/-- SHIFT_COMPLETE: the drivers latch the image and the echo wait begins (R85). -/
def execShiftComplete (chain : Fin 8) (s : State) : Host.Outcome State Fault Refusal :=
  .next <| State.fillOn <|
    match s.exchange chain with
    | .writing n .shifting => s.setExchange chain (.writing n .echoWait)
    | .sensing n .shifting => s.setExchange chain (.sensing n .echoWait)
    | .writing _ .echoWait | .sensing _ .echoWait | .idle | .latched | .senseInterval | .done | .failed => s

/-- WRITE_ECHO: taken by a write attempt in its echo wait, and discarded otherwise (R85, R86). -/
def execWriteEcho (chain : Fin 8) (echo : Image) (s : State) : Host.Outcome State Fault Refusal :=
  .next <| State.fillOn <|
    match s.exchange chain with
    | .writing n .echoWait =>
      if echo = s.coil.images.get 0 chain then s.chainLatches chain else s.writeAttemptFails chain n
    | .writing _ .shifting | .sensing _ _ | .idle | .latched | .senseInterval | .done | .failed => s

/-- SENSE_ECHO: taken by a sense attempt in its echo wait, and discarded otherwise (R86, R89, R90). -/
def execSenseEcho (chain : Fin 8) (echo made : Image) (s : State) : Host.Outcome State Fault Refusal :=
  .next <| State.fillOn <|
    match s.exchange chain with
    | .sensing n .echoWait =>
      if echo = s.coil.images.get 0 chain then s.senseCompletes chain made
      else s.senseAttemptFails chain n
    | .sensing _ .shifting | .writing _ _ | .idle | .latched | .senseInterval | .done | .failed => s

/-- NO_ECHO: an attempt in its echo wait ends without a whole echo (R85, R89). -/
def execNoEcho (chain : Fin 8) (s : State) : Host.Outcome State Fault Refusal :=
  .next <| State.fillOn <|
    match s.exchange chain with
    | .writing n .echoWait => s.writeAttemptFails chain n
    | .sensing n .echoWait => s.senseAttemptFails chain n
    | .writing _ .shifting | .sensing _ .shifting | .idle | .latched | .senseInterval | .done | .failed => s

/-- STALE_ECHO: discarded (R86). -/
def execStaleEcho (_chain : Fin 8) (_echo : Image) (s : State) : Host.Outcome State Fault Refusal := .next s.fillOn

/-- TIMED_WAIT_END: the wave's timed wait ends (R90, R109). With no timed wait nothing changes (log 5). -/
def execTimedWaitEnd (s : State) : Host.Outcome State Fault Refusal :=
  .next <| State.fillOn <|
    match s.coil.wave with
    | some w =>
      match w.stage with
      | .timedWait => s.endTimedWait w
      | .writing | .sensing _ _ => s
    | none => s

/-- Whether the deadline of the wave's sense period has been reached (R91). -/
def State.deadlineReached (s : State) : Bool :=
  match s.coil.wave with
  | some { stage := .sensing _ reached, .. } => reached
  | _ => false

/-- SENSE_INTERVAL_END: the chain's next sense exchange begins, unless the deadline was reached first (R90, R91). -/
def execSenseIntervalEnd (chain : Fin 8) (s : State) : Host.Outcome State Fault Refusal :=
  .next <| State.fillOn <|
    match s.exchange chain with
    | .senseInterval => if s.deadlineReached then s else s.setExchange chain (.sensing 1 .shifting)
    | .writing _ _ | .sensing _ _ | .idle | .latched | .done | .failed => s

/-- SENSE_DEADLINE: the deadline of the sense period is reached (R91). -/
def execSenseDeadline (s : State) : Host.Outcome State Fault Refusal :=
  .next (s.senseProgress true).fillOn

end Sys2Proof.Machine
end

