-- ==== Sys2Proof/Machine/Frames.lean ====
section
/-! DEFINITION. POLL and the frames that are not acted on (R169 to R172, R183, R184, R192). -/

namespace Sys2Proof.Machine

/-- Word 0 of a POLL payload holding this controller's claim (R192, section 10.7). -/
def State.claimWord (s : State) : Word :=
  1#1 ++ 0#20 ++ BitVec.ofNat 3 s.claimLevel ++ s.control.params.arbitration ++ s.ring.address

/-- Whether this controller's claim beats the winner in word 0 (R192). -/
def State.beats (s : State) (winner : Word) : Bool :=
  let level := (winner.extractLsb' 8 3).toNat
  let number := (winner.extractLsb' 4 4).toNat
  decide (s.claimLevel ≠ 0) &&
    (!winner.getLsbD 31 || decide (level < s.claimLevel) ||
      (decide (level = s.claimLevel) && decide (number < s.control.params.arbitration.toNat)))

/-- The envelope of a POLL that this controller takes (R184, R192). -/
def State.polled (s : State) (e : Envelope) : Envelope :=
  { e with
    accepts := countUp e.accepts,
    payload :=
      match e.payload with
      | w :: ws => (if s.beats w then s.claimWord else w) :: ws
      | [] => [] }

/-- POLL: examined whatever its destination and status (R184). -/
def execPoll (e : Envelope) (arg : Word) (s : State) : Host.Outcome State Fault Refusal :=
  let t := s.finishRead
  .next
    (if t.control.lockLost then t
    else if t.control.resetting.isSome || isCorrupt e then t.send (sealedWords kindPoll arg e)
    else if e.length = 0 || lengthBad e then t.send (sealedWords kindPoll arg (refusedBroadcast e t.ring.address))
    else t.send (sealedWords kindPoll arg (t.polled e)))

/-- FRAME_CRC_FAIL: marked CORRUPT, sent on with its CRC recomputed, and LINK_CRC raised; during a reset no CRC is
checked (R171, R183). -/
def execFrameCrcFail (f : Frame) (s : State) : Host.Outcome State Fault Refusal :=
  let t := s.finishRead
  .next
    (if t.control.lockLost then t
    else if t.control.resetting.isSome then t.send (frameWords f)
    else (t.send (sealedWords f.kind f.arg (corrupted f.env))).raise .linkCrc)

/-- SHORT_FRAME: sent on unchanged, and LINK_CRC raised; during a reset nothing is checked (R170, R183). -/
def execShortFrame (words : List Word) (s : State) : Host.Outcome State Fault Refusal :=
  let t := s.finishRead
  .next
    (if t.control.lockLost then t
    else if t.control.resetting.isSome then t.send words
    else (t.send words).raise .linkCrc)

/-- FRAME_NOT_FOR_THIS_CONTROLLER: sent on unchanged, not acted on (R171, R172). That the frame is not for this controller
is what the row says of it: the destination is not compared with the ring address again. DESIGN CHOICE (log 29). -/
def execFrameNotForThisController (f : Frame) (s : State) : Host.Outcome State Fault Refusal :=
  .next (s.finishRead.forward (frameWords f))

/-- FRAME_DURING_RESET: sent on unchanged, unchecked and unanswered (R183). That a reset is in progress is what the row
says: one taken with no reset in progress is sent on all the same. DESIGN CHOICE (log 30). -/
def execFrameDuringReset (words : List Word) (s : State) : Host.Outcome State Fault Refusal :=
  .next (s.finishRead.forward words)

end Sys2Proof.Machine
end

