-- ==== Sys2Proof/Machine/Reads.lean ====
section
/-! DEFINITION. The READ frames (R166, R180, R181). -/

namespace Sys2Proof.Machine

/-- The start index of a READ of a space other than NOTICES, or the reason it is refused: CONTINUE takes it from the
cursor, and an index equal to the size is admitted only from the cursor (R180, R181). -/
def State.readStart (s : State) (sp : Space) (a : ReadArg) : Except Reason Nat :=
  if a.resume then
    match s.ring.cursor with
    | some c =>
      if c.space = sp then
        if c.next ≤ sp.size then .ok c.next else .error .badIndex
      else .error .noCursor
    | none => .error .noCursor
  else if a.start.toNat < sp.size then .ok a.start.toNat
  else .error .badIndex

/-- A READ of NOTICES: the oldest records fill the payload and leave the list (R166). -/
def State.takeNotices (s : State) (e : Envelope) : Handled × Envelope :=
  let taken := s.wear.notices.take e.payload.length
  ({ answer := .done, state := { s with wear.notices := s.wear.notices.drop e.payload.length } },
    filledWith e (taken.map Notice.word))

/-- What the checks of an addressed READ come to (R181). -/
inductive ReadCheck where
  | refused (r : Reason)
  | notices
  | fill (sp : Space) (start : Nat)
deriving DecidableEq, Repr

/-- The checks of an addressed READ, in their order (R181). -/
def State.checkRead (s : State) (a : ReadArg) (space : Byte) : ReadCheck :=
  match Space.ofCode space with
  | none => .refused .badSpace
  | some .notices => .notices
  | some sp =>
    match s.readStart sp a with
    | .error r => .refused r
    | .ok start => .fill sp start

/-- A READ of a space other than NOTICES that has passed its checks: the cursor is set to the start index plus the number
of words it will fill, and the filling begins (R180, R181). -/
def State.takeRead (s : State) (e : Envelope) (a : ReadArg) (space : Byte) (sp : Space) (start : Nat) : State :=
  let goal := min e.payload.length (sp.size - start)
  { s with ring.cursor := some { space := sp, next := start + goal }, free := s.free + 1 }.holdOrSend
    { env := e, arg := readArgWord a space, space := sp, start := start, goal := goal,
      filled := s.wordsNow sp start start goal }

/-- A READ frame at the ring port; sent broadcast it is refused by every controller (R181). The reason of a broadcast
refusal is not recorded (R174). -/
def State.receiveRead (s : State) (e : Envelope) (a : ReadArg) (space : Byte) (h : Handled × Envelope) : State :=
  s.receive kindRead (readArgWord a space) e
    (fun broadcast => if broadcast then (.refuse .badArgument s, e) else h)

/-- READ: one that is acted on and addressed is checked and filled, and any other is handled by its disposition
(R173 to R175, R180, R181). -/
def execRead (e : Envelope) (a : ReadArg) (space : Byte) (s : State) : Host.Outcome State Fault Refusal :=
  let t := s.finishRead
  match t.disposition e with
  | .act false =>
    match t.checkRead a space with
    | .fill sp start => .next (t.takeRead e a space sp start)
    | .notices => .next (t.receiveRead e a space (t.takeNotices e))
    | .refused r => .next (t.receiveRead e a space (.refuse r t, e))
  | .act true | .cutShort | .pass | .clash | .badLength _ =>
    .next (t.receiveRead e a space (.refuse .badArgument t, e))

/-- READ_NOTICES (R166). -/
def execReadNotices (e : Envelope) (a : ReadArg) (s : State) : Host.Outcome State Fault Refusal :=
  let t := s.finishRead
  .next (t.receiveRead e a Space.notices.code (t.takeNotices e))

end Sys2Proof.Machine
end

