-- ==== Sys2Proof/Machine/Resets.lean ====
section
/-! DEFINITION. Resets and symbol lock (R193, R194). -/

namespace Sys2Proof.Machine

/-- POWER_ON: a hard reset begins (R193). -/
def execPowerOn (s : State) : Host.Outcome State Fault Refusal :=
  .next (s.beginReset .powerOn false).fillOn

/-- The source of the reset after RSTN goes low: RSTN, except that the record of a power-on reset in progress is FREE
(R193; log 7). -/
def State.rstnSource (s : State) : ResetSource :=
  match s.control.resetting with
  | some { source := .powerOn, .. } => if Config.rstnDuringPowerOn s.free then .rstn else .powerOn
  | _ => .rstn

/-- Whether link loss was recorded in the reset in progress (R193). -/
def State.linkLostInReset (s : State) : Bool :=
  match s.control.resetting with
  | some r => r.linkLost
  | none => false

/-- RSTN_LOW: a hard reset begins, or a soft reset in progress turns into one (R193). -/
def execRstnLow (s : State) : Host.Outcome State Fault Refusal :=
  .next (State.beginReset { s with control.rstnLow := true, free := s.free + 1 } s.rstnSource s.linkLostInReset).fillOn

/-- RSTN_HIGH: a hard reset may end once the chains are cleared (R193). -/
def execRstnHigh (s : State) : Host.Outcome State Fault Refusal :=
  .next (State.fillOn { s with control.rstnLow := false })

/-- SYMBOL_LOCK_LOST: the link-loss timer starts (R193). -/
def execSymbolLockLost (s : State) : Host.Outcome State Fault Refusal :=
  .next <| State.fillOn <|
    if s.control.lockLost then s
    else { s with control.lockLost := true, control.linkTimer := true }

/-- SYMBOL_LOCK_RETURN: the link-loss timer stops (R193). -/
def execSymbolLockReturn (s : State) : Host.Outcome State Fault Refusal :=
  .next (State.fillOn { s with control.lockLost := false, control.linkTimer := false })

/-- LINK_LOSS: the link-loss timer expires; a soft reset begins, or the loss is recorded in the reset in progress
(R193). With the timer stopped there is no expiry, and nothing changes. -/
def execLinkLoss (s : State) : Host.Outcome State Fault Refusal :=
  .next <| State.fillOn <|
    if s.control.linkTimer then
      match s.control.resetting with
      | some r => { s with control.linkTimer := false, control.resetting := some { r with linkLost := true } }
      | none => State.beginReset { s with control.linkTimer := false } .linkLoss false
    else s

/-- RESET_END: the reset in progress ends, when it may (R193, R194). -/
def execResetEnd (straps : BitVec 4) (s : State) : Host.Outcome State Fault Refusal :=
  .next <| State.fillOn <|
    match s.control.resetting with
    | some r => if s.mayEndReset r then s.finishReset r straps else s
    | none => s

end Sys2Proof.Machine
end

