-- ==== Sys2Proof/Machine/Steps.lean ====
section
/-! DEFINITION. The STEP frames and the completion of a resolution (R36 to R65, R177). -/

namespace Sys2Proof.Machine

/-- A STEP frame with a valid action at the ring port (R37, R177). -/
def State.receiveStep (s : State) (e : Envelope) (a : StepArg) (action : Action) : State :=
  s.receivePlain kindStep (stepArgWord a action.code) e (s.acceptStep a action)

/-- STEP_CHECK (R37). -/
def execStepCheck (e : Envelope) (a : StepArg) (s : State) : Host.Outcome State Fault Refusal :=
  .next (s.finishRead.receiveStep e a .check)

/-- STEP_STAGE (R37, R59). -/
def execStepStage (e : Envelope) (a : StepArg) (s : State) : Host.Outcome State Fault Refusal :=
  .next (s.finishRead.receiveStep e a .stage)

/-- STEP_APPLY (R37, R60): READY is low from the acceptance, since the context holds the APPLY. -/
def execStepApply (e : Envelope) (a : StepArg) (s : State) : Host.Outcome State Fault Refusal :=
  .next (s.finishRead.receiveStep e a .apply)

/-- The examination of a STEP with action code 3: the mode first, then BAD_ARGUMENT (R37). -/
def State.refuseAction (s : State) : Handled :=
  match s.control.mode with
  | .lockedOut => .refuse .lockedOut s
  | .configure => .refuse .wrongMode s
  | .run => .refuse .badArgument s

/-- STEP_BAD_ACTION (R37). -/
def execStepBadAction (e : Envelope) (a : StepArg) (s : State) : Host.Outcome State Fault Refusal :=
  .next (s.finishRead.receivePlain kindStep (stepArgWord a 3) e s.finishRead.refuseAction)

/-- RESOLUTION_COMPLETE (R58). With the resolver IDLE there is no resolution to complete, and nothing changes
(log 5). -/
def execResolutionComplete (s : State) : Host.Outcome State Fault Refusal :=
  .next <| State.fillOn <|
    match s.resolver.context with
    | some ctx => s.completeResolution ctx
    | none => s

end Sys2Proof.Machine
end

