-- ==== Sys2Proof/Machine/Writes.lean ====
section
/-! DEFINITION. The WRITE frames (R14, R33, R161, R178, R188). -/

namespace Sys2Proof.Machine

/-- Payload words stored one by one at ascending indices from `i` (R178). -/
def storeWords (store : State → Nat → Word → State) : State → Nat → List Word → State
  | s, _, [] => s
  | s, i, w :: ws => storeWords store (store s i w) (i + 1) ws

/-- Whether every payload word meets `p` at its index. -/
def everyWord (p : Nat → Word → Bool) : Nat → List Word → Bool
  | _, [] => true
  | i, w :: ws => p i w && everyWord p (i + 1) ws

/-- Whether every word of the payload falls within the space (R14, R33, R161, R188). -/
def inSpace (sp : Space) (start : Nat) (ws : List Word) : Bool :=
  decide (ws = [] ∨ start + ws.length ≤ sp.size)

/-- A WRITE to a topology space: mode, index and value, and then every word or none (R14). -/
def State.writeTopology (s : State) (sp : Space) (start : Nat) (ws : List Word) (storable : Nat → Word → Bool)
    (store : State → Nat → Word → State) : Handled :=
  if s.control.mode ≠ .configure then .refuse .wrongMode s
  else if !inSpace sp start ws then .refuse .badIndex s
  else if !everyWord storable start ws then .refuse .badArgument s
  else { answer := .done, state := storeWords store s start ws }

/-- A WRITE frame at the ring port (R178). -/
def State.receiveWrite (s : State) (e : Envelope) (a : WriteArg) (space : Byte) (h : Handled) : State :=
  s.receivePlain kindWrite (writeArgWord a space) e h

/-- One RELAY_MAP word stored (R3). -/
def storeRelayMap (s : State) (i : Nat) (w : Word) : State :=
  { s with topology.relayMap := s.topology.relayMap.put .absent i (.ofWord w) }

/-- WRITE_RELAY_MAP (R3, R14). -/
def execWriteRelayMap (e : Envelope) (a : WriteArg) (s : State) : Host.Outcome State Fault Refusal :=
  let t := s.finishRead
  .next (t.receiveWrite e a Space.relayMap.code
    (t.writeTopology .relayMap a.start.toNat e.payload (fun _ _ => true) storeRelayMap))

/-- One CLASS word stored: word i is word i mod 4 of class i div 4 (R67, R179). -/
def storeClass (s : State) (i : Nat) (w : Word) : State :=
  { s with
    topology.classes :=
      s.topology.classes.put .initial (i / 4) ((s.topology.classes.get .initial (i / 4)).written (i % 4) w) }

/-- WRITE_CLASS (R14, R67). -/
def execWriteClass (e : Envelope) (a : WriteArg) (s : State) : Host.Outcome State Fault Refusal :=
  let t := s.finishRead
  .next (t.receiveWrite e a Space.cls.code
    (t.writeTopology .cls a.start.toNat e.payload (fun _ _ => true) storeClass))

/-- One PORTS word stored (R8). -/
def storePort (s : State) (i : Nat) (w : Word) : State :=
  match PortEntry.ofWord w with
  | some p => { s with topology.ports := s.topology.ports.put .initial i p }
  | none => s

/-- WRITE_PORTS (R8, R14). -/
def execWritePorts (e : Envelope) (a : WriteArg) (s : State) : Host.Outcome State Fault Refusal :=
  let t := s.finishRead
  .next (t.receiveWrite e a Space.ports.code
    (t.writeTopology .ports a.start.toNat e.payload (fun _ w => (PortEntry.ofWord w).isSome) storePort))

/-- One SITE_ENABLE word stored (R10). -/
def storeSite (s : State) (i : Nat) (w : Word) : State :=
  { s with topology.sites := s.topology.sites.put false i (w.getLsbD 0) }

/-- WRITE_SITE_ENABLE (R10, R14). -/
def execWriteSiteEnable (e : Envelope) (a : WriteArg) (s : State) : Host.Outcome State Fault Refusal :=
  let t := s.finishRead
  .next (t.receiveWrite e a Space.siteEnable.code
    (t.writeTopology .siteEnable a.start.toNat e.payload (fun _ _ => true) storeSite))

/-- One PIN_MAP word stored (R11). -/
def storePin (s : State) (i : Nat) (w : Word) : State :=
  match pinOfWord w with
  | some v => { s with topology.pinMap := s.topology.pinMap.put none i v }
  | none => s

/-- WRITE_PIN_MAP (R11, R14). -/
def execWritePinMap (e : Envelope) (a : WriteArg) (s : State) : Host.Outcome State Fault Refusal :=
  let t := s.finishRead
  .next (t.receiveWrite e a Space.pinMap.code
    (t.writeTopology .pinMap a.start.toNat e.payload (fun _ w => (pinOfWord w).isSome) storePin))

/-- One PORT_MAP word stored (R12). -/
def storePortMap (s : State) (i : Nat) (w : Word) : State :=
  match portOfWord w with
  | some v => { s with topology.portMap := s.topology.portMap.put none i v }
  | none => s

/-- WRITE_PORT_MAP (R12, R14). -/
def execWritePortMap (e : Envelope) (a : WriteArg) (s : State) : Host.Outcome State Fault Refusal :=
  let t := s.finishRead
  .next (t.receiveWrite e a Space.portMap.code
    (t.writeTopology .portMap a.start.toNat e.payload (fun _ w => (portOfWord w).isSome) storePortMap))

/-- A WRITE to the route store: index, value and use, and then every word or none, in every mode (R33). -/
def State.writeStore (s : State) (sp : Space) (start : Nat) (ws : List Word) (storable : Nat → Word → Bool)
    (inUse : SetInUse → Nat → Bool) (store : State → Nat → Word → State) : Handled :=
  if !inSpace sp start ws then .refuse .badIndex s
  else if !everyWord storable start ws then .refuse .badArgument s
  else
    match s.resolver.context with
    | some { inUse := some u, .. } =>
      if everyWord (fun i _ => !inUse u i) start ws then { answer := .done, state := storeWords store s start ws }
      else .busy .setInUse s
    | _ => { answer := .done, state := storeWords store s start ws }

/-- One ROUTE_DIR word stored (R19). -/
def storeDir (s : State) (i : Nat) (w : Word) : State :=
  match DirEntry.ofWord w with
  | some d => { s with store.directory := s.store.directory.put .initial i d }
  | none => s

/-- WRITE_ROUTE_DIR (R20, R33, R34). -/
def execWriteRouteDir (e : Envelope) (a : WriteArg) (s : State) : Host.Outcome State Fault Refusal :=
  let t := s.finishRead
  .next (t.receiveWrite e a Space.routeDir.code
    (t.writeStore .routeDir a.start.toNat e.payload (fun _ w => (DirEntry.ofWord w).isSome)
      (fun u i => decide (i = u.dir)) storeDir))

/-- One ENTRIES word stored (R22). -/
def storeEntry (s : State) (i : Nat) (w : Word) : State :=
  match Entry.ofWord w with
  | some x => { s with store.pool := s.store.pool.put .initial i x }
  | none => s

/-- WRITE_ENTRIES (R22, R33, R34). -/
def execWriteEntries (e : Envelope) (a : WriteArg) (s : State) : Host.Outcome State Fault Refusal :=
  let t := s.finishRead
  .next (t.receiveWrite e a Space.entries.code
    (t.writeStore .entries a.start.toNat e.payload (fun _ w => (Entry.ofWord w).isSome)
      (fun u i => decide (u.first ≤ i ∧ i < u.first + u.count)) storeEntry))

/-- One WEAR word stored: the count of relay i div 2 at an even index, its health at an odd one (R160, R162). -/
def storeWear (s : State) (i : Nat) (w : Word) : State :=
  let old := s.wear.records.get .initial (i / 2)
  if i % 2 = 0 then { s with wear.records := s.wear.records.put .initial (i / 2) { old with count := w } }
  else
    match Health.ofCode (w.extractLsb' 0 2) with
    | some h => { s with wear.records := s.wear.records.put .initial (i / 2) { old with health := h } }
    | none => s

/-- Whether a WEAR word can be stored at its index (R161). -/
def wearStorable (i : Nat) (w : Word) : Bool :=
  decide (i % 2 = 0) || (Health.ofCode (w.extractLsb' 0 2)).isSome

/-- A WRITE to WEAR: mode, index, value, engine and resolver (R161). -/
def State.writeWear (s : State) (start : Nat) (ws : List Word) : Handled :=
  if s.control.mode = .lockedOut then .refuse .lockedOut s
  else if !inSpace .wear start ws then .refuse .badIndex s
  else if !everyWord wearStorable start ws then .refuse .badArgument s
  else if s.control.mode = .run ∧ s.engine.phase ≠ .idle then .busy .engine s
  else if s.control.mode = .run ∧ s.resolver.context.isSome then .busy .resolving s
  else { answer := .done, state := storeWords storeWear s start ws }

/-- WRITE_WEAR (R161, R162). -/
def execWriteWear (e : Envelope) (a : WriteArg) (s : State) : Host.Outcome State Fault Refusal :=
  let t := s.finishRead
  .next (t.receiveWrite e a Space.wear.code (t.writeWear a.start.toNat e.payload))

/-- One CONFIG word stored with its clamping (R188). -/
def storeConfig (s : State) (i : Nat) (w : Word) : State :=
  { s with control.params := s.control.params.written i w }

/-- A WRITE to CONFIG: checked for its index alone (R188). -/
def State.writeConfig (s : State) (start : Nat) (ws : List Word) : Handled :=
  if !inSpace .config start ws then .refuse .badIndex s
  else { answer := .done, state := storeWords storeConfig s start ws }

/-- WRITE_CONFIG (R188). -/
def execWriteConfig (e : Envelope) (a : WriteArg) (s : State) : Host.Outcome State Fault Refusal :=
  let t := s.finishRead
  .next (t.receiveWrite e a Space.config.code (t.writeConfig a.start.toNat e.payload))

/-- WRITE naming no space, or a read-only one (R178). -/
def execWrite (e : Envelope) (a : WriteArg) (space : Byte) (s : State) : Host.Outcome State Fault Refusal :=
  let t := s.finishRead
  .next (t.receiveWrite e a space
    (match Space.ofCode space with
      | none => .refuse .badSpace t
      | some _ => .refuse .readOnly t))

end Sys2Proof.Machine
end

