-- ==== Sys2Proof/Machine/Dispatch.lean ====
section
/-! DEFINITION. The meaning of each command, by its row. -/

namespace Sys2Proof.Machine

/-- The effect of a command on everything but the queue. -/
def exec (i : Instr) (s : State) : Host.Outcome State Fault Refusal :=
  match i with
  | .stepCheck e a => Sys2Proof.Machine.execStepCheck e a s
  | .stepStage e a => Sys2Proof.Machine.execStepStage e a s
  | .stepApply e a => Sys2Proof.Machine.execStepApply e a s
  | .resolutionComplete => Sys2Proof.Machine.execResolutionComplete s
  | .writeRelayMap e a => Sys2Proof.Machine.execWriteRelayMap e a s
  | .writeClass e a => Sys2Proof.Machine.execWriteClass e a s
  | .writePorts e a => Sys2Proof.Machine.execWritePorts e a s
  | .writeSiteEnable e a => Sys2Proof.Machine.execWriteSiteEnable e a s
  | .writePinMap e a => Sys2Proof.Machine.execWritePinMap e a s
  | .writePortMap e a => Sys2Proof.Machine.execWritePortMap e a s
  | .writeRouteDir e a => Sys2Proof.Machine.execWriteRouteDir e a s
  | .writeEntries e a => Sys2Proof.Machine.execWriteEntries e a s
  | .writeWear e a => Sys2Proof.Machine.execWriteWear e a s
  | .writeConfig e a => Sys2Proof.Machine.execWriteConfig e a s
  | .write e a space => Sys2Proof.Machine.execWrite e a space s
  | .read e a space => Sys2Proof.Machine.execRead e a space s
  | .readNotices e a => Sys2Proof.Machine.execReadNotices e a s
  | .enterRun e a => Sys2Proof.Machine.execEnterRun e a s
  | .enterConfigure e a => Sys2Proof.Machine.execEnterConfigure e a s
  | .setGate e a => Sys2Proof.Machine.execSetGate e a s
  | .abort e a => Sys2Proof.Machine.execAbort e a s
  | .resume e a => Sys2Proof.Machine.execResume e a s
  | .rollback e a => Sys2Proof.Machine.execRollback e a s
  | .safeOpen e a => Sys2Proof.Machine.execSafeOpen e a s
  | .discardStaged e a => Sys2Proof.Machine.execDiscardStaged e a s
  | .ackAlert e a => Sys2Proof.Machine.execAckAlert e a s
  | .softReset e a => Sys2Proof.Machine.execSoftReset e a s
  | .controlBadOperation e a operation => Sys2Proof.Machine.execControlBadOperation e a operation s
  | .poll e arg => Sys2Proof.Machine.execPoll e arg s
  | .frameCrcFail f => Sys2Proof.Machine.execFrameCrcFail f s
  | .shortFrame words => Sys2Proof.Machine.execShortFrame words s
  | .frameNotForThisController f => Sys2Proof.Machine.execFrameNotForThisController f s
  | .frameDuringReset words => Sys2Proof.Machine.execFrameDuringReset words s
  | .trigEdge => Sys2Proof.Machine.execTrigEdge s
  | .qackHigh => Sys2Proof.Machine.execQackHigh s
  | .guardTimeout => Sys2Proof.Machine.execGuardTimeout s
  | .shiftComplete chain => Sys2Proof.Machine.execShiftComplete chain s
  | .writeEcho chain echo => Sys2Proof.Machine.execWriteEcho chain echo s
  | .senseEcho chain echo made => Sys2Proof.Machine.execSenseEcho chain echo made s
  | .noEcho chain => Sys2Proof.Machine.execNoEcho chain s
  | .staleEcho chain echo => Sys2Proof.Machine.execStaleEcho chain echo s
  | .timedWaitEnd => Sys2Proof.Machine.execTimedWaitEnd s
  | .senseIntervalEnd chain => Sys2Proof.Machine.execSenseIntervalEnd chain s
  | .senseDeadline => Sys2Proof.Machine.execSenseDeadline s
  | .powerOn => Sys2Proof.Machine.execPowerOn s
  | .rstnLow => Sys2Proof.Machine.execRstnLow s
  | .rstnHigh => Sys2Proof.Machine.execRstnHigh s
  | .symbolLockLost => Sys2Proof.Machine.execSymbolLockLost s
  | .symbolLockReturn => Sys2Proof.Machine.execSymbolLockReturn s
  | .linkLoss => Sys2Proof.Machine.execLinkLoss s
  | .resetEnd straps => Sys2Proof.Machine.execResetEnd straps s
  | .stepBadAction e a => Sys2Proof.Machine.execStepBadAction e a s

end Sys2Proof.Machine
end

