-- ==== Sys2Proof/Machine/Step.lean ====
section
/-! DEFINITION. One step of the block: the command at the front of the queue. -/

namespace Sys2Proof.Machine

/-- One step. The command at the front of the queue leaves it and acts; on an empty queue a READ that is being filled is
finished, and otherwise the block idles: DESIGN CHOICE (log 4). -/
def step (s : State) : Host.Outcome State Fault Refusal :=
  match s.pending with
  | [] => .next s.finishRead
  | c :: rest => exec c { s with pending := rest }

/-- `s` with the command that a word spells at the front of its queue. No row of the table has bits, so no word spells
a command and `s` stays as it is (log 27). -/
def State.withFetchWord (s : State) (nbits w : Nat) : State :=
  match Sys2Proof.decodeTableWord nbits w with
  | some c => { s with pending := c :: s.pending }
  | none => s

end Sys2Proof.Machine
end

