-- ==== Sys2Proof/Safety.lean ====
section
/-! DEFINITION. The terms in which claims about the 7164 are made: which frame is acted on, what a net is, and the
agreements between blocks that every event keeps. -/

namespace Sys2Proof

open Sys2Proof.Machine

/-- The words of the frame that a command brings to the ring port, where it brings one. -/
def Instr.arrivingWords : Instr → Option (List Word)
  | .stepCheck e a => some (sealedWords kindStep (stepArgWord a 0) e)
  | .stepStage e a => some (sealedWords kindStep (stepArgWord a 1) e)
  | .stepApply e a => some (sealedWords kindStep (stepArgWord a 2) e)
  | .stepBadAction e a => some (sealedWords kindStep (stepArgWord a 3) e)
  | .writeRelayMap e a => some (sealedWords kindWrite (writeArgWord a 0) e)
  | .writeClass e a => some (sealedWords kindWrite (writeArgWord a 1) e)
  | .writePorts e a => some (sealedWords kindWrite (writeArgWord a 2) e)
  | .writeSiteEnable e a => some (sealedWords kindWrite (writeArgWord a 3) e)
  | .writePinMap e a => some (sealedWords kindWrite (writeArgWord a 4) e)
  | .writePortMap e a => some (sealedWords kindWrite (writeArgWord a 5) e)
  | .writeRouteDir e a => some (sealedWords kindWrite (writeArgWord a 6) e)
  | .writeEntries e a => some (sealedWords kindWrite (writeArgWord a 7) e)
  | .writeWear e a => some (sealedWords kindWrite (writeArgWord a 8) e)
  | .writeConfig e a => some (sealedWords kindWrite (writeArgWord a 9) e)
  | .write e a space => some (sealedWords kindWrite (writeArgWord a space) e)
  | .read e a space => some (sealedWords kindRead (readArgWord a space) e)
  | .readNotices e a => some (sealedWords kindRead (readArgWord a 15) e)
  | .enterRun e a => some (sealedWords kindControl (controlArgWord a 1) e)
  | .enterConfigure e a => some (sealedWords kindControl (controlArgWord a 2) e)
  | .setGate e a => some (sealedWords kindControl (controlArgWord a 3) e)
  | .abort e a => some (sealedWords kindControl (controlArgWord a 4) e)
  | .resume e a => some (sealedWords kindControl (controlArgWord a 5) e)
  | .rollback e a => some (sealedWords kindControl (controlArgWord a 6) e)
  | .safeOpen e a => some (sealedWords kindControl (controlArgWord a 7) e)
  | .discardStaged e a => some (sealedWords kindControl (controlArgWord a 8) e)
  | .ackAlert e a => some (sealedWords kindControl (controlArgWord a 9) e)
  | .softReset e a => some (sealedWords kindControl (controlArgWord a 10) e)
  | .controlBadOperation e a operation => some (sealedWords kindControl (controlArgWord a operation) e)
  | .poll e arg => some (sealedWords kindPoll arg e)
  | .frameCrcFail f => some (frameWords f)
  | .shortFrame words => some words
  | .frameNotForThisController f => some (frameWords f)
  | .frameDuringReset words => some words
  | .resolutionComplete | .trigEdge | .qackHigh | .guardTimeout | .shiftComplete _ | .writeEcho _ _
  | .senseEcho _ _ _ | .noEcho _ | .staleEcho _ _ | .timedWaitEnd | .senseIntervalEnd _ | .senseDeadline
  | .powerOn | .rstnLow | .rstnHigh | .symbolLockLost | .symbolLockReturn | .linkLoss | .resetEnd _ => none

/-- The kind code, argument word and envelope of a frame whose CRC agrees and whose kind is STEP, WRITE, READ or
CONTROL: the frames that R172 classifies by their destination. -/
def Instr.directed : Instr → Option (Byte × Word × Envelope)
  | .stepCheck e a => some (1, stepArgWord a 0, e)
  | .stepStage e a => some (1, stepArgWord a 1, e)
  | .stepApply e a => some (1, stepArgWord a 2, e)
  | .stepBadAction e a => some (1, stepArgWord a 3, e)
  | .writeRelayMap e a => some (2, writeArgWord a 0, e)
  | .writeClass e a => some (2, writeArgWord a 1, e)
  | .writePorts e a => some (2, writeArgWord a 2, e)
  | .writeSiteEnable e a => some (2, writeArgWord a 3, e)
  | .writePinMap e a => some (2, writeArgWord a 4, e)
  | .writePortMap e a => some (2, writeArgWord a 5, e)
  | .writeRouteDir e a => some (2, writeArgWord a 6, e)
  | .writeEntries e a => some (2, writeArgWord a 7, e)
  | .writeWear e a => some (2, writeArgWord a 8, e)
  | .writeConfig e a => some (2, writeArgWord a 9, e)
  | .write e a space => some (2, writeArgWord a space, e)
  | .read e a space => some (3, readArgWord a space, e)
  | .readNotices e a => some (3, readArgWord a 15, e)
  | .enterRun e a => some (4, controlArgWord a 1, e)
  | .enterConfigure e a => some (4, controlArgWord a 2, e)
  | .setGate e a => some (4, controlArgWord a 3, e)
  | .abort e a => some (4, controlArgWord a 4, e)
  | .resume e a => some (4, controlArgWord a 5, e)
  | .rollback e a => some (4, controlArgWord a 6, e)
  | .safeOpen e a => some (4, controlArgWord a 7, e)
  | .discardStaged e a => some (4, controlArgWord a 8, e)
  | .ackAlert e a => some (4, controlArgWord a 9, e)
  | .softReset e a => some (4, controlArgWord a 10, e)
  | .controlBadOperation e a operation => some (4, controlArgWord a operation, e)
  | .poll _ _ | .frameCrcFail _ | .shortFrame _ | .frameNotForThisController _ | .frameDuringReset _
  | .resolutionComplete | .trigEdge | .qackHigh | .guardTimeout | .shiftComplete _ | .writeEcho _ _
  | .senseEcho _ _ _ | .noEcho _ | .staleEcho _ _ | .timedWaitEnd | .senseIntervalEnd _ | .senseDeadline
  | .powerOn | .rstnLow | .rstnHigh | .symbolLockLost | .symbolLockReturn | .linkLoss | .resetEnd _ => none

end Sys2Proof

namespace Sys2Proof.Machine

/-- The ring port receives frames and acts on them: symbol lock is held, no reset is in progress, and no READ is being
filled (R169, R183). A READ that is being filled is finished first, and then this holds of the state after it (R181). -/
abbrev State.Listens (s : State) : Prop :=
  s.control.lockLost = false ∧ s.control.resetting = none ∧ s.ring.reading = none

/-- The READ `r` after it has taken words at each of the moments listed, one after another: at the moment `v`, the next
`v.2` of its words as they stand in `v.1` (R181). -/
def Reading.takes (r : Reading) (moments : List (State × Nat)) : Reading :=
  moments.foldl
    (fun q v =>
      { q with filled := q.filled ++ (List.range v.2).map (fun k => v.1.wordAt q.space (q.start + q.filled.length + k)) })
    r

/-- `s` with the READ `r`: sent on, DONE, if it has all its words, and otherwise going on being filled (R181). -/
def State.holding (s : State) (r : Reading) : State :=
  if r.goal ≤ r.filled.length then
    State.send { s with ring.reading := none }
      (sealedWords kindRead r.arg
        { r.env with
          status := 1, reason := 0, filled := BitVec.ofNat 8 r.filled.length,
          payload := r.filled ++ r.env.payload.drop r.filled.length })
  else { s with ring.reading := some r }

/-- `s` after the READ `r` has taken `m` more of its words, as they stand in `s`. -/
def State.tookWords (s : State) (r : Reading) (m : Nat) : State := s.holding (r.takes [(s, m)])

/-- An event of another block may fall right before the word at index `i` of a READ from `start`: before the first word it
takes, and between any two but those of a WEAR record and of STATUS, RESULT, FAULT or VALIDATION (R116, R181). -/
abbrev MayPart (sp : Space) (start i : Nat) : Prop :=
  i = start ∨ sp ∉ [Space.status, .result, .fault, .validation, .notices] ∧ (sp = .wear → i % 2 = 0)

/-- A READ that has taken words at the moments listed has taken no more than it fills, and after each of them it has them
all or waits where an event may fall (R181). -/
def Reading.PausesWell (r : Reading) (moments : List (State × Nat)) : Prop :=
  (r.takes moments).filled.length ≤ max r.goal r.filled.length ∧
    ∀ k, k < moments.length →
      let q := r.takes (moments.take (k + 1))
      q.filled.length < r.goal → MayPart r.space r.start (r.start + q.filled.length)

/-- The payload length field is at most 16 and is the number of words carried (R175). -/
abbrev LengthAgrees (e : Envelope) : Prop := e.length.toNat = e.payload.length ∧ e.payload.length ≤ 16

/-- A frame that carries the envelope `e` is acted on: it is unmarked, its length agrees, and it is broadcast
(`broadcast` is true) or addressed to this controller with status EMPTY (R171 to R175). -/
abbrev State.ActsOn (s : State) (e : Envelope) (broadcast : Bool) : Prop :=
  s.Listens ∧ e.marks.getLsbD 0 = false ∧ LengthAgrees e ∧
    (broadcast = true ∧ e.dest = 255 ∨ broadcast = false ∧ e.dest.toNat = s.ring.address.toNat ∧ e.status = 0)

/-- `s` with an answered frame sent on. -/
def State.replies (s : State) (kind : Byte) (arg : Word) (e : Envelope) (broadcast : Bool) (a : Answer) : State :=
  s.send (sealedWords kind arg (answered e broadcast s.ring.address a))

/-! ### Writes and reads of the address spaces -/

/-- Every payload word falls within a space of `size` words (R14, R33, R161, R188). -/
abbrev Fits (size start : Nat) (ws : List Word) : Prop := ws = [] ∨ start + ws.length ≤ size

/-- What the words of a space of `size` words read as after `ws` has been stored from `start` on: each word of the range
as `stored` gives it, and every other word as before. -/
abbrev StoredAt (size : Nat) (old new : Nat → Word) (stored : Nat → Word → Word) (start : Nat) (ws : List Word) : Prop :=
  (∀ k (h : k < ws.length), new (start + k) = stored (start + k) ws[k]) ∧
    ∀ i, i < size → i < start ∨ start + ws.length ≤ i → new i = old i

/-- The WRITE rows of R14, each with its space code and the words of its space (R179). -/
def topologyWrites : List ((Envelope → WriteArg → Instr) × Byte × Nat) :=
  [(.writeRelayMap, 0, 1024), (.writeClass, 1, 64), (.writePorts, 2, 32), (.writeSiteEnable, 3, 8),
    (.writePinMap, 4, 256), (.writePortMap, 5, 128)]

/-- The CLASS word that index `i` reads as after `w` is written there: the named bits of word i mod 4 (section 10.7),
with the clamping of R67. -/
def clampedClass (i : Nat) (w : Word) : Word :=
  match i % 4 with
  | 0 | 1 => w
  | 2 =>
    let life := w.extractLsb' 0 16
    let derate := w.extractLsb' 16 8
    0#7 ++ w.extractLsb' 24 1 ++ (if 100 < derate.toNat then 100 else derate) ++ (if life = 0 then 1 else life)
  | _ =>
    let warn := w.extractLsb' 0 8
    0#16 ++ w.extractLsb' 8 8 ++ (if warn = 0 then 1 else warn)

/-- The CONFIG word that index `i` reads as after `w` is written there (R188). -/
def clampedParam (i : Nat) (w : Word) : Word :=
  let v := (w.extractLsb' 0 16).toNat
  match i with
  | 0 => BitVec.ofNat 32 (min (max v 1) 64)
  | 1 => BitVec.ofNat 32 (max v 1)
  | 2 => w &&& 1
  | 3 => BitVec.ofNat 32 (min (max v 1) 255)
  | 4 => BitVec.ofNat 32 (min v 15)
  | _ => w &&& 0x1FFF

/-- A PIN_MAP word carries a pin line or UNMAPPED (R11, section 10.7). -/
abbrev IsPinWord (w : Word) : Prop := (w.extractLsb' 0 8).toNat ≤ 63 ∨ (w.extractLsb' 0 8).toNat = 255

/-- A PORT_MAP word carries a port node or UNMAPPED (R12, section 10.7). -/
abbrev IsPortWord (w : Word) : Prop :=
  80 ≤ (w.extractLsb' 0 8).toNat ∧ (w.extractLsb' 0 8).toNat ≤ 111 ∨ (w.extractLsb' 0 8).toNat = 255

/-- A PORTS word carries a defined role (R8, section 10.7). -/
abbrev IsRoleWord (w : Word) : Prop := w.extractLsb' 0 2 ≠ 3

/-- A ROUTE_DIR word carries a count of 0 to 64 (R20, section 10.7). -/
abbrev IsDirWord (w : Word) : Prop := (w.extractLsb' 16 7).toNat ≤ 64

/-- An ENTRIES word encodes a DIRECT or a PATH entry, with no bit set outside the fields of its kind (R22, section
10.7). -/
abbrev IsEntryWord (w : Word) : Prop :=
  w &&& 0xFFFFFC00 = 0x80000000 ∨
    w &&& 0xFFE0F0E0 = 0 ∧ ((w.extractLsb' 16 5).toNat ≤ 15 ∨ (w.extractLsb' 16 5).toNat = 31)

/-- A write of `n` words from directory index `start` touches the set in use (R34). -/
def State.TouchesDir (s : State) (start n : Nat) : Prop :=
  ∃ ctx u, s.resolver.context = some ctx ∧ ctx.inUse = some u ∧ start ≤ u.dir ∧ u.dir < start + n

/-- A write of `n` words from pool index `start` touches the set in use (R34). -/
def State.TouchesRun (s : State) (start n : Nat) : Prop :=
  ∃ ctx u i, s.resolver.context = some ctx ∧ ctx.inUse = some u ∧ start ≤ i ∧ i < start + n ∧ u.first ≤ i ∧
    i < u.first + u.count

/-! ### The tables -/

/-- The tables pass all four stages of validation (R15, R16, R68). -/
structure State.TablesValid (s : State) : Prop where
  relays : ∀ r, (s.relay r).present = true →
    (s.relay r).a.toNat ≤ 111 ∧ (s.relay r).b.toNat ≤ 111 ∧ (s.relay r).a ≠ (s.relay r).b ∧ (s.classOf r).operate ≠ 0
  classes : ∀ c, c < 16 → (s.topology.classes.get .initial c).warn.toNat ≤ (s.topology.classes.get .initial c).retire.toNat
  ports : ∀ i, i < 32 → (s.port i).guarded = true → (s.port i).role = .force ∧ i < 24
  pins : ∀ i j p, i < j → s.topology.pinMap.get none i = some p → s.topology.pinMap.get none j ≠ some p

/-- Present relay `r` joins nodes `x` and `y`, in either order (R3, R5). -/
abbrev State.JoinsPair (s : State) (r x y : Nat) : Prop :=
  (s.relay r).present = true ∧
    ((s.relay r).a.toNat = x ∧ (s.relay r).b.toNat = y ∨ (s.relay r).a.toNat = y ∧ (s.relay r).b.toNat = x)

/-! ### Nets -/

/-- Nodes `x` and `y` are joined through relays that some owner holds in `h` (R48). -/
def State.Joined (s : State) (h : Holdings) : Nat → Nat → Prop :=
  Relation.EqvGen (fun x y => ∃ r, ownerOf h r ≠ none ∧ (s.relay r).a.toNat = x ∧ (s.relay r).b.toNat = y)

/-- Every held relay joins two of the 112 nodes, as validation asks of present relays (R15). -/
def State.NodesValid (s : State) (h : Holdings) : Prop :=
  ∀ r, ownerOf h r ≠ none → (s.relay r).a.toNat ≤ 111 ∧ (s.relay r).b.toNat ≤ 111

/-- Holdings `h` join no two FORCE port nodes and no pin lines of two sites (R48 to R50). -/
structure State.NetsSound (s : State) (h : Holdings) : Prop where
  force : ∀ x y, s.Joined h x y → s.isForce x = true → s.isForce y = true → x = y
  sites : ∀ p q a b, s.Joined h p q → p < 64 → q < 64 → a < 8 → b < 8 → s.owns a p = true → s.owns b q = true → a = b

/-- Every node of the net of `n` has a number not below `n`: `n` is the net's identity (R48). -/
def State.IsIdentity (s : State) (h : Holdings) (n : Nat) : Prop := ∀ m, s.Joined h n m → n ≤ m

/-- The net of `n` holds at most one FORCE port node (R49). -/
def State.NoShort (s : State) (h : Holdings) (n : Nat) : Prop :=
  ∀ x y, s.Joined h n x → s.Joined h n y → s.isForce x = true → s.isForce y = true → x = y

/-- Site `a` owns pin line `p` of the net of `n` (R13, R50). -/
def State.SiteIn (s : State) (h : Holdings) (n a p : Nat) : Prop := s.Joined h n p ∧ p < 64 ∧ a < 8 ∧ s.owns a p = true

/-- The net of `n` holds pin lines of at most one site (R50). -/
def State.NoCross (s : State) (h : Holdings) (n : Nat) : Prop :=
  ∀ a b p q, s.SiteIn h n a p → s.SiteIn h n b q → a = b

/-! ### Entries -/

/-- The retired test (R42). -/
def State.NotBarred (s : State) (ctx : Resolution) (o : Owner) (r : Nat) : Prop :=
  (s.wearOf r).health = .retired → ownerOf ctx.base r = some o

/-- Relay `r` passes the retired test and then the owner test for `o` (R42, R43). -/
def State.Admits (s : State) (ctx : Resolution) (t : Holdings) (o : Owner) (r : Nat) : Prop :=
  s.NotBarred ctx o r ∧ (ownerOf t r = none ∨ ownerOf t r = some o)

/-- Relay `r` fails one of the two tests with conflict `c`: RETIRED first, then OVERLAP (R42, R43, R56). -/
def State.Bars (s : State) (ctx : Resolution) (t : Holdings) (o : Owner) (r : Nat) (c : Conflict) : Prop :=
  ¬ s.NotBarred ctx o r ∧ c = { Conflict.bare .retired with relay := some r } ∨
    s.NotBarred ctx o r ∧ ∃ x, ownerOf t r = some x ∧ x ≠ o ∧
      c = { Conflict.bare .overlap with relay := some r, holder := some x }

/-- The first pass of the AUTO choice takes trunk `k`, with pin relay `a` and port relay `b` (R46). -/
def State.Reuses (s : State) (ctx : Resolution) (t : Holdings) (o : Owner) (p q k a b : Nat) : Prop :=
  s.pairLookup (64 + k) q = some b ∧ ownerOf t b = some o ∧ s.pairLookup p (64 + k) = some a ∧ s.Admits ctx t o a

/-- The second pass of the AUTO choice takes trunk `k`, with pin relay `a` and port relay `b` (R46). -/
def State.TakesFresh (s : State) (ctx : Resolution) (t : Holdings) (o : Owner) (p q k a b : Nat) : Prop :=
  s.pairLookup p (64 + k) = some a ∧ s.pairLookup (64 + k) q = some b ∧
    (∀ r, ownerOf t r ≠ none → (s.relay r).a.toNat ≠ 64 + k ∧ (s.relay r).b.toNat ≠ 64 + k) ∧
    s.NotBarred ctx o a ∧ s.NotBarred ctx o b

/-- `u` is `t` with the relays in `rs` given to `o`. -/
def GivenTo (t u : Holdings) (o : Owner) (rs : List Nat) : Prop :=
  ∀ r, ownerOf u r = if r ∈ rs then some o else ownerOf t r

/-! ### Outcomes that several events share -/

/-- `u` is `s` with one chain's exchange state replaced by `x` (R86). -/
structure State.Moves (s u : State) (chain : Nat) (x : Exchange) : Prop where
  rest : u = { s with coil.exchanges := u.coil.exchanges }
  here : u.exchange chain = x
  others : ∀ c, c ≠ chain → u.exchange c = s.exchange c

/-- The relays in `rs` of a wave given status `st`. -/
def Wave.given (w : Wave) (rs : List Nat) (st : RelayStatus) : List WaveRelay :=
  w.relays.map (fun x => if x.relay ∈ rs then { x with status := st } else x)

/-- The wave relays that are on chain `c`, or on any chain, and have status `st`, in the wave's order. -/
def Wave.having (w : Wave) (c : Option Nat) (st : RelayStatus) : List Nat :=
  (w.relays.filter (fun x => decide (x.status = st ∧ (c = none ∨ c = some (x.relay / 128))))).map WaveRelay.relay

/-- The relays of a wave after a sense exchange of chain `c` has been taken with the contact states `made`: a SENSING relay
of the chain that matches is confirmed, one that does not stays SENSING, and one of timeout 0 is then spent; a spent relay
is not examined (R90, R91; log 15). -/
def Wave.sensed (w : Wave) (c : Nat) (made : Image) : List WaveRelay :=
  w.relays.map (fun x =>
    if x.relay / 128 = c ∧ x.status = .sensing ∧ x.spent = false then
      if made.getLsbD (x.relay % 128) = w.close then { x with status := .confirmed }
      else { x with spent := decide (x.senseTimeout = 0) }
    else x)

/-- `d` is the largest sense timeout among the SENSING relays of a list, which has one (R90). -/
structure LargestTimeout (l : List WaveRelay) (d : Nat) : Prop where
  above : ∀ x ∈ l, x.status = .sensing → x.senseTimeout ≤ d
  attained : ∃ x ∈ l, x.status = .sensing ∧ x.senseTimeout = d

/-- `s` after the relays in `l` have been confirmed closed or opened one by one, in the order of the list (R110). -/
def State.confirmEach (s : State) (close : Bool) (l : List Nat) : State := l.foldl (fun t r => t.confirm close r) s

/-- `u` is `s` after the relays in `rs` have been confirmed closed or opened, each by an event of its own and in some order:
their actual state, their pending lists and their wear counts change together, and nothing else changes but what the
single confirmations do to the wear records, the notice list and the alert causes (R76, R77, R110, R163, R165). -/
structure State.ConfirmsTo (s u : State) (close : Bool) (rs : List Nat) : Prop where
  order : ∃ l, l.Perm rs ∧ u = State.confirmEach { s with free := s.free + 1 } close l
  rest : u =
    { s with
      engine.actual := u.engine.actual, engine.pendingOpen := u.engine.pendingOpen,
      engine.pendingClose := u.engine.pendingClose, wear := u.wear, alerts := u.alerts, free := s.free + 1 }
  actual : ∀ r, Table.get .opened u.engine.actual r =
    if r ∈ rs then (if close then .closed else .opened) else Table.get .opened s.engine.actual r
  opens : u.engine.pendingOpen = s.engine.pendingOpen.filter (fun r => r ∉ rs)
  closes : u.engine.pendingClose = s.engine.pendingClose.filter (fun r => r ∉ rs)
  counts : ∀ r, (u.wearOf r).count.toNat =
    if r ∈ rs then
      min ((s.wearOf r).count.toNat +
        (if ∃ t, s.engine.transition = some t ∧ t.hot = true then s.control.params.hotWeight
          else if close then 1 else 0)) 4294967295
    else (s.wearOf r).count.toNat

/-- The fault record after it has taken a fault (R125). -/
def faultTaken (f : FaultRecord) (e : FaultEntry) : FaultRecord :=
  if f.first = none then { first := some e, additional := 0 } else { f with additional := min (f.additional + 1) 255 }

/-- `u` is `s` after entry into SUSPENDED, with what the gate does then (R130, R154). -/
structure State.SuspendsTo (s u : State) (reason : SuspendReason) (phase : FaultPhase) : Prop where
  rest : u =
    { s with
      engine.quiet := 0, engine.guardWait := none, engine.suspension := reason, engine.suspendedPhase := some phase,
      engine.abortNoted := false, engine.phase := .suspended, gate.mode := u.gate.mode, gate.reason := u.gate.reason,
      alerts := u.alerts }
  gateMode : u.gate.mode = if s.gate.mode = .free then .free else .halt
  gateReason : u.gate.reason = if s.gate.mode = .free then s.gate.reason else .fault
  causes : ∀ c, u.isRaised c = (s.isRaised c || decide (c = .suspend) ||
    decide (c = .halted ∧ (s.gate.mode = .normal ∨ s.gate.mode = .single)))

/-- The result record of a cancelled resolution: the step's own fields, and every other field absent or 0 (R63). -/
def cancelledRecord (ctx : Resolution) : ResultRecord :=
  { outcome := .cancelled, action := ctx.action, mode := ctx.mode, routeSet := ctx.routeSet, effective := ctx.effective,
    baseNumber := ctx.baseNumber, owner := none, entryIndex := none, node1 := none, node2 := none, relay := none,
    holder := none, net := none, openCount := 0, closeCount := 0, openWaves := 0, closeWaves := 0,
    reassignedCount := 0, duration := 0, guarded := 0, replaced := false }

/-- The result record of a resolution that failed on `c`: its counts are 0 (R56). -/
def failedRecord (ctx : Resolution) (c : Conflict) : ResultRecord :=
  { outcome := c.outcome, action := ctx.action, mode := ctx.mode, routeSet := ctx.routeSet, effective := ctx.effective,
    baseNumber := ctx.baseNumber, owner := c.owner, entryIndex := c.entryIndex, node1 := c.node1, node2 := c.node2,
    relay := c.relay, holder := c.holder, net := c.net, openCount := 0, closeCount := 0, openWaves := 0, closeWaves := 0,
    reassignedCount := 0, duration := 0, guarded := 0, replaced := false }

/-- The result record of a resolution that ended OK with the plan `p`: it names no conflict (R56). -/
def okRecord (ctx : Resolution) (p : Plan) (replaced : Bool) : ResultRecord :=
  { outcome := .ok, action := ctx.action, mode := ctx.mode, routeSet := ctx.routeSet, effective := ctx.effective,
    baseNumber := ctx.baseNumber, owner := none, entryIndex := none, node1 := none, node2 := none, relay := none,
    holder := none, net := none, openCount := p.opens.length, closeCount := p.closes.length, openWaves := p.openWaves,
    closeWaves := p.closeWaves, reassignedCount := p.reassigned.length, duration := p.duration, guarded := p.guarded,
    replaced := replaced }

/-- `u` is `s` after a latched trigger has been re-examined with the engine and the resolver IDLE: it stays latched with the
gate in HALT, and otherwise leaves the latch and takes the plan in the slot, discards it as stale, or raises TRIG_EMPTY
(R149, R150). -/
structure State.ReexaminesTo (s u : State) : Prop where
  stays : s.gate.latch = false ∨ s.gate.mode = .halt → u = s
  empty : s.gate.latch = true → s.gate.mode ≠ .halt → s.gate.slot = none →
    u = State.raise { s with gate.latch := false } .trigEmpty
  stale : ∀ p, s.gate.latch = true → s.gate.mode ≠ .halt → s.gate.slot = some p →
    (p.baseNumber ≠ s.engine.lastCompleted ∨ ∃ x ∈ p.closes, (s.wearOf x.1).health = .retired) →
    u = State.raise { s with gate.latch := false, gate.slot := none } .stale
  starts : ∀ p, s.gate.latch = true → s.gate.mode ≠ .halt → s.gate.slot = some p →
    p.baseNumber = s.engine.lastCompleted → (∀ x ∈ p.closes, (s.wearOf x.1).health ≠ .retired) →
    u = State.startStepped { s with gate.latch := false } p

/-- `u` is `s` after entry into LOCKED_OUT (R64, R95, R140). -/
structure State.LocksOutTo (s u : State) : Prop where
  rest : u =
    { s with
      control.mode := .lockedOut,
      coil := { images := s.coil.images, exchanges := [], wave := none, coilEnable := false },
      engine :=
        { phase := .lockout, transition := none, current := s.engine.current, lastCompleted := s.engine.lastCompleted,
          holdings := [], baseMap := [], actual := [], pendingOpen := [], pendingClose := [], fault := s.engine.fault,
          suspension := .none, suspendedPhase := none, abortNoted := false, guardWait := none, quiet := 0 },
      gate.slot := none, gate.latch := false, resolver := u.resolver, alerts := u.alerts }
  idleResolver : s.resolver.context = none → u.resolver = s.resolver
  cancels : ∀ ctx, s.resolver.context = some ctx → u.resolver = { context := none, result := cancelledRecord ctx }
  causes : ∀ c, u.isRaised c = (s.isRaised c || decide (c = .lockout) ||
    decide (c = .resolveFail) && s.resolver.context.isSome)

/-- What every reset sets at its start (R65, R94, R120, R180, R194). -/
structure State.EmptyBoard (u : State) : Prop where
  mode : u.control.mode = .configure
  cursor : u.ring.cursor = none
  resolver : u.resolver.context = none ∧ u.resolver.result.outcome = .none
  result : ∀ k, k < 9 → u.wordAt .result k = if k = 2 then 0x7FFFFFFF else if k = 3 then 0xFFFFFF else 0
  gate : u.gate = { slot := none, latch := false, mode := .normal, reason := .none }
  engine : u.engine =
    { phase := .idle, transition := none, current := 0, lastCompleted := 0, holdings := [], baseMap := [], actual := [],
      pendingOpen := [], pendingClose := [], fault := { first := none, additional := 0 }, suspension := .none,
      suspendedPhase := none, abortNoted := false, guardWait := none, quiet := 0 }
  coil : u.coil = { images := [], exchanges := [], wave := none, coilEnable := false }
  causes : ∀ c, u.isRaised c = false

/-- What a hard reset sets besides, each space read as words (R18, R35, R67, R168, R188). -/
structure State.HardValues (u : State) : Prop where
  relays : ∀ i, u.wordAt .relayMap i = 0
  classes : ∀ i, u.wordAt .cls i = if i % 4 = 2 then 1 else if i % 4 = 3 then 0x101 else 0
  ports : ∀ i, u.wordAt .ports i = 0
  sites : ∀ i, u.wordAt .siteEnable i = 0
  pins : ∀ i, u.wordAt .pinMap i = 255
  portMap : ∀ i, u.wordAt .portMap i = 255
  directory : ∀ i, u.wordAt .routeDir i = 0
  entries : ∀ i, u.wordAt .entries i = 0
  wear : ∀ i, u.wordAt .wear i = 0
  notices : u.wear.notices = []
  validation : u.wordAt .validation 0 = 0
  params : u.wordAt .config 0 = 16 ∧ u.wordAt .config 1 = 2000 ∧ u.wordAt .config 2 = 0 ∧ u.wordAt .config 3 = 10 ∧
    u.wordAt .config 5 = 0

/-! ### Invariants -/

/-- Every sparse table is in its canonical form (log 22). -/
structure State.Canonical (s : State) : Prop where
  relayMap : Table.wf RelayEntry.absent s.topology.relayMap
  classes : Table.wf ClassEntry.initial s.topology.classes
  ports : Table.wf PortEntry.initial s.topology.ports
  sites : Table.wf false s.topology.sites
  pinMap : Table.wf none s.topology.pinMap
  portMap : Table.wf none s.topology.portMap
  directory : Table.wf DirEntry.initial s.store.directory
  pool : Table.wf Entry.initial s.store.pool
  holdings : Table.wf none s.engine.holdings
  baseMap : Table.wf none s.engine.baseMap
  actual : Table.wf Contact.opened s.engine.actual
  images : Table.wf 0 s.coil.images
  exchanges : Table.wf Exchange.idle s.coil.exchanges
  wear : Table.wf WearRecord.initial s.wear.records
  base : ∀ ctx, s.resolver.context = some ctx → Table.wf none ctx.base
  target : ∀ ctx, s.resolver.context = some ctx → Table.wf none ctx.target

/-- The engine's records and the coil chain unit agree with the engine's state (R92, R96, R97, R103 to R107, R113,
R129, R130). -/
structure State.EngineAgrees (s : State) : Prop where
  record : s.engine.transition = none ↔ s.engine.phase = .idle ∨ s.engine.phase = .lockout
  atRest : s.engine.transition = none →
    s.engine.pendingOpen = [] ∧ s.engine.pendingClose = [] ∧ ∀ r, ownerOf s.engine.baseMap r = none
  breakBeforeMake : s.engine.phase = .closing → s.engine.pendingOpen = []
  quietInFlight : ∀ t, s.engine.transition = some t → s.engine.phase ≠ .suspended → s.engine.quiet = t.guarded
  quietAtRest : s.engine.transition = none ∨ s.engine.phase = .suspended → s.engine.quiet = 0
  guardWait : s.engine.guardWait.isSome = true ↔ s.engine.phase = .guarding
  abortNoted : s.engine.abortNoted = true → s.engine.phase = .opening ∨ s.engine.phase = .closing
  suspension : s.engine.suspension = .none ↔ s.engine.phase ≠ .suspended
  suspendedPhase : s.engine.suspendedPhase = none ↔ s.engine.phase ≠ .suspended
  wave : s.coil.wave.isSome = true ↔ s.engine.phase = .opening ∨ s.engine.phase = .closing
  direction : ∀ w, s.coil.wave = some w → (w.close = true ↔ s.engine.phase = .closing)
  chainsIdle : s.coil.wave = none → ∀ c, s.exchange c = .idle

/-- The mode, the gate, the resolver, the coil supply and the alert unit agree with each other and with the engine
(R29, R93, R144, R152, R157, R185, R188, R191, R194). -/
structure State.ModeAgrees (s : State) : Prop where
  lockout : s.control.mode = .lockedOut ↔ s.engine.phase = .lockout
  configure : s.control.mode = .configure → s.engine.phase = .idle
  atRest : s.control.mode ≠ .run →
    s.gate.slot = none ∧ s.gate.latch = false ∧ s.resolver.context = none ∧ ∀ r, ownerOf s.engine.holdings r = none
  lockoutCalls : s.control.mode = .lockedOut → s.isRaised .lockout = true
  unmaskable : s.control.params.mask.getLsbD Cause.lockout.bit = false
  resetting : s.control.resetting ≠ none → s.control.mode = .configure
  supply : s.coil.coilEnable = true ↔ s.control.resetting = none ∧ s.control.mode ≠ .lockedOut
  bound : ∀ p, s.gate.slot = some p → p.bound = s.gate.latch
  reason : s.gate.reason = .none ↔ s.gate.mode ≠ .halt

/-- Both halves of the agreement between the blocks. -/
structure State.Agrees (s : State) : Prop where
  engine : s.EngineAgrees
  mode : s.ModeAgrees

/-- A list of relays in ascending order without duplicates (R100). -/
abbrev Ascending (l : List Nat) : Prop := l.Pairwise (· < ·)

/-- The pending lists, the wave and the staged plan agree with the actual-state table: every UNKNOWN relay is pending, and
every list is ascending (R51, R84, R100, R108, R131). -/
structure State.PendingAgrees (s : State) : Prop where
  unknown : ∀ r, Table.get .opened s.engine.actual r = .unknown → r ∈ s.engine.pendingOpen ∨ r ∈ s.engine.pendingClose
  opens : Ascending s.engine.pendingOpen
  closes : Ascending s.engine.pendingClose
  apart : ∀ r, r ∈ s.engine.pendingOpen → r ∉ s.engine.pendingClose
  wave : ∀ w, s.coil.wave = some w → ∀ x ∈ w.relays, x.status ≠ .confirmed →
    x.relay ∈ if w.close then s.engine.pendingClose else s.engine.pendingOpen
  waveOrder : ∀ w, s.coil.wave = some w → Ascending (w.relays.map WaveRelay.relay)
  planOpens : ∀ p, s.gate.slot = some p → Ascending p.opens
  planCloses : ∀ p, s.gate.slot = some p → Ascending (p.closes.map Prod.fst)
  planApart : ∀ p, s.gate.slot = some p → ∀ r, r ∈ p.opens → r ∉ p.closes.map Prod.fst

/-- The wave, its stage, the statuses of its relays and the exchange states of the chains agree: a relay is WRITING,
LATCHED or SENSING exactly while its chain is, each stage has a relay that it waits for, no relay outlives its wave as
CONTACT_FAILED, and a chain the wave does not touch is IDLE (R84, R86 to R92, R109). -/
structure State.WaveAgrees (s : State) : Prop where
  writing : ∀ w, s.coil.wave = some w → ∀ x ∈ w.relays,
    (x.status = .writing ↔ ∃ n st, s.exchange (x.relay / 128) = .writing n st) ∧ (x.status = .writing → w.stage = .writing)
  latched : ∀ w, s.coil.wave = some w → ∀ x ∈ w.relays,
    (x.status = .latched ↔ s.exchange (x.relay / 128) = .latched) ∧
      (x.status = .latched → w.stage = .writing ∨ w.stage = .timedWait)
  sensing : ∀ w, s.coil.wave = some w → ∀ x ∈ w.relays, x.status = .sensing →
    (s.exchange (x.relay / 128) = .senseInterval ∨ ∃ n st, s.exchange (x.relay / 128) = .sensing n st) ∧
      ∃ d reached, w.stage = .sensing d reached
  confirmed : ∀ w, s.coil.wave = some w → ∀ x ∈ w.relays, x.status = .confirmed → ∃ d reached, w.stage = .sensing d reached
  failed : ∀ w, s.coil.wave = some w → ∀ x ∈ w.relays, x.status ≠ .contactFailed ∧
    (x.status = .chainFailed → s.exchange (x.relay / 128) = .failed ∧ w.failed = true)
  waits : ∀ w, s.coil.wave = some w →
    (w.stage = .writing → ∃ x ∈ w.relays, x.status = .writing) ∧
      (w.stage = .timedWait → ∃ x ∈ w.relays, x.status = .latched) ∧
      ∀ d reached, w.stage = .sensing d reached → LargestTimeout w.relays d
  untouched : ∀ w, s.coil.wave = some w → ∀ c, (∀ x ∈ w.relays, x.relay / 128 ≠ c) → s.exchange c = .idle

/-- No owner holds an absent relay, now, in the base or target of a step or rollback, or by the staged plan (R4, R27). -/
structure State.HoldsPresent (s : State) : Prop where
  holdings : ∀ r, ownerOf s.engine.holdings r ≠ none → (s.relay r).present = true
  baseMap : ∀ r, ownerOf s.engine.baseMap r ≠ none → (s.relay r).present = true
  base : ∀ ctx, s.resolver.context = some ctx → ∀ r, ownerOf ctx.base r ≠ none → (s.relay r).present = true
  target : ∀ ctx, s.resolver.context = some ctx → ∀ r, ownerOf ctx.target r ≠ none → (s.relay r).present = true
  plan : ∀ p, s.gate.slot = some p → ∀ e ∈ p.closes ++ p.reassigned, (s.relay e.1).present = true

/-- What the engine knows of the relays agrees with the holding table, and a resolution and a staged plan with the
transition numbers and the holdings they were made from (R28, R38, R98 to R102, R112, R114). -/
structure State.BoardAgrees (s : State) : Prop where
  /-- A relay on no pending list is CLOSED if the holding table names an owner for it, and OPEN otherwise. -/
  settled : ∀ r, r ∉ s.engine.pendingOpen → r ∉ s.engine.pendingClose →
    Table.get .opened s.engine.actual r = if ownerOf s.engine.holdings r = none then .opened else .closed
  opens : ∀ r, r ∈ s.engine.pendingOpen →
    Table.get .opened s.engine.actual r ≠ .opened ∧ ownerOf s.engine.holdings r = none
  closes : ∀ r, r ∈ s.engine.pendingClose →
    Table.get .opened s.engine.actual r ≠ .closed ∧ ownerOf s.engine.holdings r ≠ none
  /-- While a STEPPED transition has relays left to open, no relay outside its base is CLOSED or UNKNOWN. -/
  withinBase : ∀ t, s.engine.transition = some t → t.kind = .stepped → s.engine.pendingOpen ≠ [] →
    ∀ r, Table.get .opened s.engine.actual r ≠ .opened → ownerOf s.engine.baseMap r ≠ none
  idle : s.engine.phase = .idle → s.engine.lastCompleted = s.engine.current
  number : ∀ t, s.engine.transition = some t → t.number = s.engine.current
  context : ∀ ctx, s.resolver.context = some ctx → ctx.baseNumber = s.engine.current ∧
    ctx.base = s.engine.holdings ∧ ctx.target = startingTarget ctx.mode ctx.base ctx.effective
  plan : ∀ p, s.gate.slot = some p → p.baseNumber.toNat ≤ s.engine.current.toNat ∧
    (p.baseNumber = s.engine.current →
      (∀ r ∈ p.opens, ownerOf s.engine.holdings r ≠ none ∧ r ∉ p.reassigned.map Prod.fst) ∧
      (∀ x ∈ p.closes, ownerOf s.engine.holdings x.1 = none) ∧
      ∀ x ∈ p.reassigned, ownerOf s.engine.holdings x.1 ≠ none)

/-! ### The words of the records -/

/-- A field of a word: its lowest bit, its width and its value. -/
structure WordField where
  lo : Nat
  width : Nat
  value : Nat

/-- The word `w` holds each field in its place, and every bit outside them is 0 (section 10.7). -/
def Laid (w : Word) (fields : List WordField) : Prop :=
  (∀ f ∈ fields, w.extractLsb' f.lo f.width = BitVec.ofNat f.width f.value) ∧
    ∀ k, k < 32 → (∀ f ∈ fields, k < f.lo ∨ f.lo + f.width ≤ k) → w.getLsbD k = false

/-- The value of a field that may be absent: all ones in its width when absent (section 10.7). -/
def orOnes (width : Nat) : Option Nat → Nat
  | some n => n
  | none => 2 ^ width - 1

/-- The owner code of section 10.7: 1 to 8 for the sites and 9 for COMMON. -/
def ownerNumber : Owner → Nat
  | .site k => k.val + 1
  | .common => 9

/-- Every index that a table lists lies below `n`. -/
abbrev Table.Within {α : Type} (n : Nat) (t : Table α) : Prop := ∀ e ∈ t, e.1 < n

/-- A wave limit lies in its range (R188). -/
abbrev IsWaveLimit (w : Nat) : Prop := 1 ≤ w ∧ w ≤ 64

/-- Every stored parameter lies in its range, and every index of a table, a list, a wave, a plan, a resolution or a notice
in that of its space (R19, R66, R67, R83, R99, R165, R179, R188). -/
structure State.InRange (s : State) : Prop where
  waveLimit : IsWaveLimit s.control.params.waveLimit
  guardTimeout : 1 ≤ s.control.params.guardTimeout ∧ s.control.params.guardTimeout ≤ 65535
  hotWeight : 1 ≤ s.control.params.hotWeight ∧ s.control.params.hotWeight ≤ 255
  ratedLife : ∀ c, (s.topology.classes.get .initial c).ratedLife ≠ 0
  derate : ∀ c, (s.topology.classes.get .initial c).derate.toNat ≤ 100
  warn : ∀ c, (s.topology.classes.get .initial c).warn ≠ 0
  count : ∀ i, (s.store.directory.get .initial i).count.toNat ≤ 64
  notices : s.wear.notices.length ≤ 16 ∧ ∀ n ∈ s.wear.notices, n.relay < 1024
  topology : Table.Within 1024 s.topology.relayMap ∧ Table.Within 16 s.topology.classes ∧
    Table.Within 32 s.topology.ports ∧ Table.Within 8 s.topology.sites ∧ Table.Within 256 s.topology.pinMap ∧
    Table.Within 128 s.topology.portMap
  store : Table.Within 256 s.store.directory ∧ Table.Within 2048 s.store.pool
  relays : Table.Within 1024 s.engine.actual ∧ Table.Within 1024 s.engine.holdings ∧
    Table.Within 1024 s.engine.baseMap ∧ Table.Within 1024 s.wear.records
  lists : ∀ r ∈ s.engine.pendingOpen ++ s.engine.pendingClose, r < 1024
  chains : Table.Within 8 s.coil.images ∧ Table.Within 8 s.coil.exchanges
  wave : ∀ w, s.coil.wave = some w → ∀ x ∈ w.relays, x.relay < 1024
  transition : ∀ t, s.engine.transition = some t → IsWaveLimit t.waveLimit
  plan : ∀ p, s.gate.slot = some p → IsWaveLimit p.waveLimit ∧ (∀ r ∈ p.opens, r < 1024) ∧
    ∀ e ∈ p.closes ++ p.reassigned, e.1 < 1024
  context : ∀ ctx, s.resolver.context = some ctx → IsWaveLimit ctx.waveLimit ∧ Table.Within 1024 ctx.base ∧
    Table.Within 1024 ctx.target

end Sys2Proof.Machine
end

