-- ==== Sys2Proof/Certificates/Slice0/Obligations.lean ====
section
/-! DEFINITION. The statements about the 7164, from the numbered rules of its spec. -/

open Sys2Proof Sys2Proof.Machine

/-! ### The block and the ring port -/

/-- A step runs the command at the front of the queue with the rest of the queue; on an empty queue, with no READ being
filled, the block idles (DESIGN CHOICE, log 4). -/
def Obligations.StepRunsFrontCommand : Prop :=
  (∀ (c : Instr) (rest : List Instr) (s : State), s.pending = c :: rest → step s = exec c { s with pending := rest }) ∧
    ∀ s : State, s.pending = [] → s.ring.reading = none → step s = .next s

/-- Every command answers a next state, leaves the queue alone, and sends at most one frame, after every frame sent
before it; where a READ is being filled, that frame may leave too (R169, R181). -/
def Obligations.CommandsCompleteAndFramesLeaveInOrder : Prop :=
  ∀ (c : Instr) (s : State), ∃ t, exec c s = .next t ∧ t.pending = s.pending ∧
    ∃ ws, ws.length ≤ (if s.ring.reading = none then 1 else 2) ∧ t.ring.sent = s.ring.sent ++ ws

/-- During a reset every arriving frame is sent on unchanged and nothing else happens; the frames after a hard reset
meet the address sampled at its end (R183). While symbol lock is lost an arriving frame is neither acted on nor sent on
(R169; log 11). With a READ being filled: ReadsFillWhileEventsFall. -/
def Obligations.FramesPassDuringResetAndStopWithoutLock : Prop :=
  (∀ (c : Instr) (ws : List Word) (s : State), c.arrivingWords = some ws → s.ring.reading = none →
    s.control.lockLost = true → exec c s = .next s) ∧
  (∀ (c : Instr) (ws : List Word) (s : State), c.arrivingWords = some ws → s.ring.reading = none →
    s.control.resetting ≠ none → s.control.lockLost = false → exec c s = .next (s.send ws)) ∧
  ∀ (r : ResetRun) (straps : BitVec 4) (s : State), s.ring.reading = none →
    s.control.resetting = some r → r.source = .powerOn ∨ r.source = .rstn → s.control.rstnLow = false → s.control.lockLost = false →
    ∃ t, exec (.resetEnd straps) s = .next t ∧ t.control.resetting = none ∧ t.ring.address = straps

/-- Frames that this controller does not act on leave as they arrived: those marked CORRUPT, those for another address,
those of no kind, and a POLL marked CORRUPT (R171, R172). That a FRAME_NOT_FOR_THIS_CONTROLLER is not compared with the
ring address, and that a FRAME_DURING_RESET is sent on also when no reset is in progress, are the model's choices (DESIGN
CHOICE, logs 29 and 30). An addressed frame whose status is not EMPTY is marked
ADDRESS_CLASH and sent on, and nothing else changes (R173). -/
def Obligations.FramesNotActedOnPassOrAreMarked : Prop :=
  (∀ (c : Instr) (kind : Byte) (arg : Word) (e : Envelope) (s : State), c.directed = some (kind, arg, e) → s.Listens →
    (e.marks.getLsbD 0 = true ∨ e.dest.toNat ≠ s.ring.address.toNat ∧ e.dest ≠ 255) →
    exec c s = .next (s.send (sealedWords kind arg e))) ∧
  (∀ (e : Envelope) (arg : Word) (s : State), s.Listens → e.marks.getLsbD 0 = true →
    exec (.poll e arg) s = .next (s.send (sealedWords kindPoll arg e))) ∧
  (∀ (f : Frame) (ws : List Word) (s : State), s.control.lockLost = false → s.ring.reading = none →
    exec (.frameNotForThisController f) s = .next (s.send (frameWords f)) ∧
    exec (.frameDuringReset ws) s = .next (s.send ws)) ∧
  ∀ (c : Instr) (kind : Byte) (arg : Word) (e : Envelope) (s : State), c.directed = some (kind, arg, e) → s.Listens →
    e.marks.getLsbD 0 = false → e.dest.toNat = s.ring.address.toNat → e.status ≠ 0 →
    exec c s = .next (s.send (sealedWords kind arg { e with marks := e.marks ||| 2 }))

/-- A frame whose length is over 16 or disagrees is refused for its length: REFUSED (BAD_LENGTH) when addressed, the
refuse bit when broadcast or a POLL; its payload is left alone and nothing else changes (R175). -/
def Obligations.BadLengthIsRefused : Prop :=
  (∀ (c : Instr) (kind : Byte) (arg : Word) (e : Envelope) (s : State), c.directed = some (kind, arg, e) → s.Listens →
    e.marks.getLsbD 0 = false → ¬ LengthAgrees e →
    (e.dest.toNat = s.ring.address.toNat → e.status = 0 →
      exec c s = .next (s.send (sealedWords kind arg { e with status := 4, reason := 3 }))) ∧
    (e.dest = 255 →
      exec c s = .next (s.send (sealedWords kind arg
        { e with refusals := e.refusals ||| (1#16 <<< s.ring.address.toNat) })))) ∧
  ∀ (e : Envelope) (arg : Word) (s : State), s.Listens → e.marks.getLsbD 0 = false → ¬ LengthAgrees e →
    exec (.poll e arg) s = .next (s.send (sealedWords kindPoll arg
      { e with refusals := e.refusals ||| (1#16 <<< s.ring.address.toNat) }))

/-- A frame that fails its CRC check is marked CORRUPT and sent on with a CRC that agrees; a frame too short to carry
one is sent on as it arrived; both raise LINK_CRC, and nothing else changes (R170, R171). -/
def Obligations.DamagedFramesRaiseLinkCrc : Prop :=
  (∀ (f : Frame) (s : State), s.Listens → ∃ t, exec (.frameCrcFail f) s = .next t ∧
    t = { s with ring := t.ring, alerts := t.alerts } ∧ t.ring.address = s.ring.address ∧
    t.ring.cursor = s.ring.cursor ∧ t.ring.reading = none ∧
    t.ring.sent = s.ring.sent ++ [sealedWords f.kind f.arg { f.env with marks := f.env.marks ||| 1 }] ∧
    ∀ c, t.isRaised c = (s.isRaised c || decide (c = .linkCrc))) ∧
  ∀ (ws : List Word) (s : State), s.Listens → ∃ t, exec (.shortFrame ws) s = .next t ∧
    t = { s with ring := t.ring, alerts := t.alerts } ∧ t.ring.address = s.ring.address ∧
    t.ring.cursor = s.ring.cursor ∧ t.ring.reading = none ∧ t.ring.sent = s.ring.sent ++ [ws] ∧
    ∀ c, t.isRaised c = (s.isRaised c || decide (c = .linkCrc))

/-- A broadcast frame that is acted on leaves status, reason, marks and payload as they arrived and has exactly one of
two replies: the accept count one higher, saturating at 255, or this controller's refuse bit (R174). -/
def Obligations.BroadcastFramesCountOrRefuse : Prop :=
  ∀ (c : Instr) (kind : Byte) (arg : Word) (e : Envelope) (s : State), c.directed = some (kind, arg, e) →
    s.ActsOn e true →
    ∃ t reply, exec c s = .next t ∧ t.ring.sent = s.ring.sent ++ [sealedWords kind arg reply] ∧
      (reply = { e with accepts := if e.accepts = 255 then 255 else e.accepts + 1 } ∨
        reply = { e with refusals := e.refusals ||| (1#16 <<< s.ring.address.toNat) })

/-- An addressed frame that is acted on carries one status and one reason: DONE or ACCEPTED with reason 0, BUSY with
RESOLVING, SET_IN_USE, BOUND or ENGINE, or REFUSED with another reason. BUSY and REFUSED change no state, except that an
ENTER_RUN refused for its tables has written the VALIDATION record. A READ that has passed its checks is held while it is
being filled, and leaves then (R17, R176, R181). -/
def Obligations.AddressedFramesAnswerAndRefusalsChangeNothing : Prop :=
  ∀ (c : Instr) (kind : Byte) (arg : Word) (e : Envelope) (s : State), c.directed = some (kind, arg, e) →
    s.ActsOn e false →
    (∃ a space t r, c = .read e a space ∧ exec c s = .next t ∧ t.ring.sent = s.ring.sent ∧
      t.ring.reading = some r ∧ r.env = e ∧ r.arg = arg) ∨
    ∃ t reply, exec c s = .next t ∧ t.ring.sent = s.ring.sent ++ [sealedWords kind arg reply] ∧
      t.ring.reading = none ∧ reply.accepts = e.accepts ∧ reply.refusals = e.refusals ∧ reply.marks = e.marks ∧
      ((reply.status = 1 ∨ reply.status = 2) ∧ reply.reason = 0 ∨
        (reply.status = 3 ∧ 13 ≤ reply.reason.toNat ∧ reply.reason.toNat ≤ 16 ∨
          reply.status = 4 ∧ 1 ≤ reply.reason.toNat ∧ reply.reason.toNat ≤ 12) ∧
        ∃ v, (v = s.topology.validation ∨ ∃ a, c = .enterRun e a) ∧
          t = State.send { s with topology.validation := v } (sealedWords kind arg reply))

/-! ### Writes -/

/-- In CONFIGURE a WRITE to RELAY_MAP, PORTS, SITE_ENABLE, PIN_MAP or PORT_MAP whose words fit the space and can be
stored is answered DONE: each word reads back with its named bits as written, every other word of the space as before,
and nothing else changes (R3, R8, R10 to R12, R14). -/
def Obligations.TopologyWritesStoreEveryWord : Prop :=
  ∀ (s : State) (e : Envelope) (a : WriteArg) (b : Bool), s.ActsOn e b → s.control.mode = .configure →
    (Fits 1024 a.start.toNat e.payload → ∃ m, ∃ t : State, t = { s with topology.relayMap := m } ∧
      exec (.writeRelayMap e a) s = .next (t.replies kindWrite (writeArgWord a 0) e b .done) ∧
      StoredAt 1024 (s.wordAt .relayMap) (t.wordAt .relayMap) (fun _ w => w &&& 0x010FFFFF) a.start.toNat e.payload) ∧
    (Fits 32 a.start.toNat e.payload → (∀ w ∈ e.payload, IsRoleWord w) →
      ∃ m, ∃ t : State, t = { s with topology.ports := m } ∧
      exec (.writePorts e a) s = .next (t.replies kindWrite (writeArgWord a 2) e b .done) ∧
      StoredAt 32 (s.wordAt .ports) (t.wordAt .ports) (fun _ w => w &&& 0x13) a.start.toNat e.payload) ∧
    (Fits 8 a.start.toNat e.payload → ∃ m, ∃ t : State, t = { s with topology.sites := m } ∧
      exec (.writeSiteEnable e a) s = .next (t.replies kindWrite (writeArgWord a 3) e b .done) ∧
      StoredAt 8 (s.wordAt .siteEnable) (t.wordAt .siteEnable) (fun _ w => w &&& 1) a.start.toNat e.payload) ∧
    (Fits 256 a.start.toNat e.payload → (∀ w ∈ e.payload, IsPinWord w) →
      ∃ m, ∃ t : State, t = { s with topology.pinMap := m } ∧
      exec (.writePinMap e a) s = .next (t.replies kindWrite (writeArgWord a 4) e b .done) ∧
      StoredAt 256 (s.wordAt .pinMap) (t.wordAt .pinMap) (fun _ w => w &&& 0xFF) a.start.toNat e.payload) ∧
    (Fits 128 a.start.toNat e.payload → (∀ w ∈ e.payload, IsPortWord w) →
      ∃ m, ∃ t : State, t = { s with topology.portMap := m } ∧
      exec (.writePortMap e a) s = .next (t.replies kindWrite (writeArgWord a 5) e b .done) ∧
      StoredAt 128 (s.wordAt .portMap) (t.wordAt .portMap) (fun _ w => w &&& 0xFF) a.start.toNat e.payload)

/-- A WRITE to CLASS in CONFIGURE, and to CONFIG in every mode, within the space is answered DONE whatever its values and
changes nothing else: rated_life_k and warn_pct of 0 are stored as 1, derate_pct above 100 as 100, and a CONFIG word as the
clamping of R188 gives it. Of the alert mask word bits 0 to 12 are stored: LOCKOUT, which cannot be masked, is stored
unmasked as 0, and bits 13 to 15 read 0 (R191; the model's reading: DEDUCED, log 18). A CONFIG write with a word outside
the space is refused BAD_INDEX (R67, R188). -/
def Obligations.ClassAndConfigWritesClamp : Prop :=
  ∀ (s : State) (e : Envelope) (a : WriteArg) (b : Bool), s.ActsOn e b →
    (s.control.mode = .configure → Fits 64 a.start.toNat e.payload →
      ∃ m, ∃ t : State, t = { s with topology.classes := m } ∧
      exec (.writeClass e a) s = .next (t.replies kindWrite (writeArgWord a 1) e b .done) ∧
      StoredAt 64 (s.wordAt .cls) (t.wordAt .cls) clampedClass a.start.toNat e.payload) ∧
    (Fits 6 a.start.toNat e.payload → ∃ p, ∃ t : State, t = { s with control.params := p } ∧
      exec (.writeConfig e a) s = .next (t.replies kindWrite (writeArgWord a 9) e b .done) ∧
      StoredAt 6 (s.wordAt .config) (t.wordAt .config) clampedParam a.start.toNat e.payload) ∧
    (¬ Fits 6 a.start.toNat e.payload →
      exec (.writeConfig e a) s = .next (s.replies kindWrite (writeArgWord a 9) e b (.refused .badIndex)))

/-- A WRITE to a topology space is refused WRONG_MODE outside CONFIGURE, then BAD_INDEX when a word falls outside the
space, then BAD_ARGUMENT when a word cannot be stored; a refused write changes nothing (R14).
A WRITE to a space code that names no space is refused BAD_SPACE, and to a read-only space READ_ONLY (R178). -/
def Obligations.WritesRefuseInOrder : Prop :=
  ∀ (s : State) (e : Envelope) (a : WriteArg) (b : Bool), s.ActsOn e b →
    (∀ row ∈ topologyWrites,
      (s.control.mode ≠ .configure →
        exec (row.1 e a) s = .next (s.replies kindWrite (writeArgWord a row.2.1) e b (.refused .wrongMode))) ∧
      (s.control.mode = .configure → ¬ Fits row.2.2 a.start.toNat e.payload →
        exec (row.1 e a) s = .next (s.replies kindWrite (writeArgWord a row.2.1) e b (.refused .badIndex)))) ∧
    (s.control.mode = .configure →
      (Fits 32 a.start.toNat e.payload → (∃ w ∈ e.payload, ¬ IsRoleWord w) →
        exec (.writePorts e a) s = .next (s.replies kindWrite (writeArgWord a 2) e b (.refused .badArgument))) ∧
      (Fits 256 a.start.toNat e.payload → (∃ w ∈ e.payload, ¬ IsPinWord w) →
        exec (.writePinMap e a) s = .next (s.replies kindWrite (writeArgWord a 4) e b (.refused .badArgument))) ∧
      (Fits 128 a.start.toNat e.payload → (∃ w ∈ e.payload, ¬ IsPortWord w) →
        exec (.writePortMap e a) s = .next (s.replies kindWrite (writeArgWord a 5) e b (.refused .badArgument)))) ∧
    ∀ space : Byte,
      (17 ≤ space.toNat →
        exec (.write e a space) s = .next (s.replies kindWrite (writeArgWord a space) e b (.refused .badSpace))) ∧
      (10 ≤ space.toNat → space.toNat ≤ 16 →
        exec (.write e a space) s = .next (s.replies kindWrite (writeArgWord a space) e b (.refused .readOnly)))

/-- In every mode a WRITE to ROUTE_DIR or ENTRIES whose words fit the space, can be stored and touch no set in use is
answered DONE: each word reads back with its named bits as written, every other word of the space as before, and nothing
else changes. It is refused BAD_INDEX when a word falls outside the space, then BAD_ARGUMENT when a word cannot be
stored, then BUSY (SET_IN_USE); a refused write changes nothing (R19, R20, R22, R33, R34). -/
def Obligations.RouteStoreWritesStoreOrRefuse : Prop :=
  ∀ (s : State) (e : Envelope) (a : WriteArg) (b : Bool), s.ActsOn e b →
    (Fits 256 a.start.toNat e.payload → (∀ w ∈ e.payload, IsDirWord w) →
      ¬ s.TouchesDir a.start.toNat e.payload.length → ∃ m, ∃ t : State, t = { s with store.directory := m } ∧
      exec (.writeRouteDir e a) s = .next (t.replies kindWrite (writeArgWord a 6) e b .done) ∧
      StoredAt 256 (s.wordAt .routeDir) (t.wordAt .routeDir) (fun _ w => w &&& 0x607F07FF) a.start.toNat e.payload) ∧
    (Fits 2048 a.start.toNat e.payload → (∀ w ∈ e.payload, IsEntryWord w) →
      ¬ s.TouchesRun a.start.toNat e.payload.length → ∃ m, ∃ t : State, t = { s with store.pool := m } ∧
      exec (.writeEntries e a) s = .next (t.replies kindWrite (writeArgWord a 7) e b .done) ∧
      StoredAt 2048 (s.wordAt .entries) (t.wordAt .entries) (fun _ w => w) a.start.toNat e.payload) ∧
    (¬ Fits 256 a.start.toNat e.payload →
      exec (.writeRouteDir e a) s = .next (s.replies kindWrite (writeArgWord a 6) e b (.refused .badIndex))) ∧
    (Fits 256 a.start.toNat e.payload → (∃ w ∈ e.payload, ¬ IsDirWord w) →
      exec (.writeRouteDir e a) s = .next (s.replies kindWrite (writeArgWord a 6) e b (.refused .badArgument))) ∧
    (Fits 256 a.start.toNat e.payload → (∀ w ∈ e.payload, IsDirWord w) →
      s.TouchesDir a.start.toNat e.payload.length →
      exec (.writeRouteDir e a) s = .next (s.replies kindWrite (writeArgWord a 6) e b (.busy .setInUse))) ∧
    (¬ Fits 2048 a.start.toNat e.payload →
      exec (.writeEntries e a) s = .next (s.replies kindWrite (writeArgWord a 7) e b (.refused .badIndex))) ∧
    (Fits 2048 a.start.toNat e.payload → (∃ w ∈ e.payload, ¬ IsEntryWord w) →
      exec (.writeEntries e a) s = .next (s.replies kindWrite (writeArgWord a 7) e b (.refused .badArgument))) ∧
    (Fits 2048 a.start.toNat e.payload → (∀ w ∈ e.payload, IsEntryWord w) →
      s.TouchesRun a.start.toNat e.payload.length →
      exec (.writeEntries e a) s = .next (s.replies kindWrite (writeArgWord a 7) e b (.busy .setInUse)))

/-- A WEAR write is checked for mode, index, health values, engine and resolver, in that order. One that passes stores
counts at even indices and healths at odd ones as written, hands on no notice, raises no cause and changes nothing else;
one that is refused changes nothing (R161, R162). -/
def Obligations.WearWritesStoreOrRefuse : Prop :=
  ∀ (s : State) (e : Envelope) (a : WriteArg) (b : Bool), s.ActsOn e b →
    let storable := ∀ k (h : k < e.payload.length), (a.start.toNat + k) % 2 = 1 → e.payload[k].extractLsb' 0 2 ≠ 3
    let refusal := fun r => exec (.writeWear e a) s = .next (s.replies kindWrite (writeArgWord a 8) e b r)
    (s.control.mode = .lockedOut → refusal (.refused .lockedOut)) ∧
    (s.control.mode ≠ .lockedOut → ¬ Fits 2048 a.start.toNat e.payload → refusal (.refused .badIndex)) ∧
    (s.control.mode ≠ .lockedOut → Fits 2048 a.start.toNat e.payload → ¬ storable → refusal (.refused .badArgument)) ∧
    (s.control.mode = .run → Fits 2048 a.start.toNat e.payload → storable → s.engine.phase ≠ .idle →
      refusal (.busy .engine)) ∧
    (s.control.mode = .run → Fits 2048 a.start.toNat e.payload → storable → s.engine.phase = .idle →
      s.resolver.context ≠ none → refusal (.busy .resolving)) ∧
    ((s.control.mode = .configure ∨ s.control.mode = .run ∧ s.engine.phase = .idle ∧ s.resolver.context = none) →
      Fits 2048 a.start.toNat e.payload → storable →
      ∃ m, ∃ t : State, t = { s with wear.records := m } ∧
        exec (.writeWear e a) s = .next (t.replies kindWrite (writeArgWord a 8) e b .done) ∧
        StoredAt 2048 (s.wordAt .wear) (t.wordAt .wear) (fun i w => if i % 2 = 0 then w else w &&& 3)
          a.start.toNat e.payload)

/-! ### Reads -/

/-- An addressed READ of any space but NOTICES that passes its checks moves the read cursor past the words it fills, which
are those from its start index on, up to the payload length or the end of the space. In its own event it takes as many of
them as no other event comes before; with all of them it leaves, answered DONE with its filled count, and otherwise it goes
on being filled. A READ of STATUS, RESULT, FAULT or VALIDATION is never parted once it has begun, and no WEAR record is.
The start index comes from the frame, or with CONTINUE from a cursor of the same space (R180, R181). Which words an event
parts is FREE, the first word waits too where an event comes before it, and the cursor is set when the checks have passed:
DESIGN CHOICE, log 12. -/
def Obligations.ReadsFillFromTheSpace : Prop :=
  ∀ (s : State) (e : Envelope) (a : ReadArg) (space : Byte) (sp : Space) (start : Nat), s.ActsOn e false →
    Space.ofCode space = some sp → sp ≠ .notices →
    (a.resume = false ∧ a.start.toNat = start ∧ start < sp.size ∨
      a.resume = true ∧ s.ring.cursor = some { space := sp, next := start } ∧ start ≤ sp.size) →
    let n := min e.payload.length (sp.size - start)
    let moved : State := { s with ring.cursor := some { space := sp, next := start + n }, free := s.free + 1 }
    ∃ m, m ≤ n ∧ (m < n → MayPart sp start (start + m)) ∧
      exec (.read e a space) s = .next (moved.tookWords
        { env := e, arg := readArgWord a space, space := sp, start := start, goal := n, filled := [] } m) ∧
      (m = n → exec (.read e a space) s =
        .next (moved.send (sealedWords kindRead (readArgWord a space)
          { e with
            status := 1, reason := 0, filled := BitVec.ofNat 8 n,
            payload := (List.range n).map (fun k => s.wordAt sp (start + k)) ++ e.payload.drop n })))

/-- While a READ is being filled, an event of another block has its effect and the READ then takes some more words, as
they stand after the event, up to one before which a next event may fall. Where the event confirms relays (the end of the
timed wait, a matching sense echo), each confirmation is an event of its own: words may be taken after each of them, and
show the relays confirmed so far, while the event as a whole leaves what it leaves without the READ (R110, R116, R181). An
echo that ends a wave time of 0 is followed by the end of the timed wait. A frame that arrives finds the READ finished and
sent on, with the rest of its words as they stand. The model's choices (DESIGN CHOICE, log 12), which no rule states: which
words an event parts is FREE; a reset that starts (POWER_ON, RSTN_LOW, LINK_LOSS) and a loss of symbol lock leave a READ
that is being filled in progress; the next frame finds it finished, and no frame falls between its words. On an empty queue
the READ is finished (DESIGN CHOICE, log 4). The order of the confirmations is FREE (DESIGN CHOICE, log 6). -/
def Obligations.ReadsFillWhileEventsFall : Prop :=
  ∀ (s : State) (r : Reading), s.ring.reading = some r →
    let left := r.goal - r.filled.length
    let idle : State := { s with ring.reading := none }
    let finished := idle.tookWords r left
    let fillsAfter := fun c => ∀ u, exec c idle = .next u →
      ∃ m, m ≤ left ∧ (m < left → MayPart r.space r.start (r.start + r.filled.length + m)) ∧
        exec c s = .next (State.tookWords { u with free := u.free + 1 } r m)
    let fillsAmong := fun c close (rs : List Nat) => ∀ u, exec c idle = .next u →
      ∃ (l : List Nat) (m : Nat → Nat) (f : Nat), l.Perm rs ∧
        let moments := (List.range l.length).map (fun k => (s.confirmEach close (l.take (k + 1)), m k)) ++
          [(u, m l.length)]
        r.PausesWell moments ∧ exec c s = .next (State.holding { u with free := f } (r.takes moments))
    (∀ c, Instr.arrivingWords c = none → c ≠ .timedWaitEnd → (∀ k echo made, c ≠ .senseEcho k echo made) →
      (∀ k echo, c ≠ .writeEcho k echo ∧ c ≠ .noEcho k) → fillsAfter c) ∧
    ((∀ w, s.coil.wave = some w → w.stage ≠ .timedWait) → fillsAfter .timedWaitEnd) ∧
    (∀ (k : Fin 8) echo made,
      (s.coil.wave = none ∨ (∀ n, s.exchange k ≠ .sensing n .echoWait) ∨ echo ≠ s.coil.images.get 0 k) →
        fillsAfter (.senseEcho k echo made)) ∧
    (∀ w, s.coil.wave = some w → s.Canonical → s.PendingAgrees →
      (w.stage = .timedWait → fillsAmong .timedWaitEnd w.close
        ((w.relays.filter (fun x => decide (x.status = .latched ∧ x.mode = .timed))).map WaveRelay.relay)) ∧
      ∀ (k : Fin 8) n echo made, s.exchange k = .sensing n .echoWait → echo = s.coil.images.get 0 k →
        fillsAmong (.senseEcho k echo made) w.close
          ((w.relays.filter (fun x => decide (x.relay / 128 = k.val ∧ x.status = .sensing ∧ x.spent = false ∧
            made.getLsbD (x.relay % 128) = w.close))).map WaveRelay.relay)) ∧
    (∀ (k : Fin 8) echo, ∀ c ∈ [Instr.writeEcho k echo, .noEcho k],
      ((∀ w, s.coil.wave = some w → 0 < w.time) → fillsAfter c) ∧
      (s.Canonical → s.PendingAgrees → fillsAfter c ∨ ∃ (v : State) (w : Wave),
        v = { s with coil := v.coil, engine.actual := v.engine.actual, engine.fault := v.engine.fault } ∧
        v.coil.wave = some w ∧ w.stage = .timedWait ∧ v.Canonical ∧ v.PendingAgrees ∧
        exec c s = exec .timedWaitEnd v ∧ exec c idle = exec .timedWaitEnd { v with ring.reading := none })) ∧
    (∀ c ws, Instr.arrivingWords c = some ws → exec c s = exec c finished) ∧
    (s.pending = [] → step s = .next finished) ∧ finished.ring.reading = none

/-- An addressed READ is refused BAD_SPACE, then NO_CURSOR, then BAD_INDEX, and a broadcast READ by every controller;
a refused READ moves no cursor and changes nothing else (R180, R181). -/
def Obligations.ReadsRefuseInOrder : Prop :=
  ∀ (s : State) (e : Envelope) (a : ReadArg) (space : Byte),
    (s.ActsOn e false → 17 ≤ space.toNat →
      exec (.read e a space) s = .next (s.replies kindRead (readArgWord a space) e false (.refused .badSpace))) ∧
    (∀ sp, s.ActsOn e false → Space.ofCode space = some sp → sp ≠ .notices →
      (a.resume = true → (∀ next, s.ring.cursor ≠ some { space := sp, next := next }) →
        exec (.read e a space) s = .next (s.replies kindRead (readArgWord a space) e false (.refused .noCursor))) ∧
      (a.resume = false → sp.size ≤ a.start.toNat →
        exec (.read e a space) s = .next (s.replies kindRead (readArgWord a space) e false (.refused .badIndex)))) ∧
    (s.ActsOn e true →
      exec (.read e a space) s =
        .next (s.send (sealedWords kindRead (readArgWord a space)
          { e with refusals := e.refusals ||| (1#16 <<< s.ring.address.toNat) })) ∧
      exec (.readNotices e a) s =
        .next (s.send (sealedWords kindRead (readArgWord a 15)
          { e with refusals := e.refusals ||| (1#16 <<< s.ring.address.toNat) })))

/-- An addressed READ of NOTICES, in every mode and whatever its start index or CONTINUE flag, fills the payload with
the oldest records, one a word, and removes exactly those; a word carries the relay, the kind and the count divided by
2048. The cursor and the pending causes stay as they were, and a WRITE to NOTICES is refused READ_ONLY (R166). -/
def Obligations.NoticesReadsRemoveWhatTheyReturn : Prop :=
  (∀ (s : State) (e : Envelope) (a : ReadArg), s.ActsOn e false →
    let taken := s.wear.notices.take e.payload.length
    exec (.readNotices e a) s =
      .next (State.send { s with wear.notices := s.wear.notices.drop e.payload.length }
        (sealedWords kindRead (readArgWord a 15)
          { e with
            status := 1, reason := 0, filled := BitVec.ofNat 8 taken.length,
            payload := taken.map Notice.word ++ e.payload.drop taken.length }))) ∧
  (∀ n : Notice, n.relay < 1024 → n.word.toNat =
    n.relay + (if n.kind = .retire then 1024 else 0) + 2048 * (n.count.toNat / 2048)) ∧
  ∀ (s : State) (e : Envelope) (a : WriteArg) (b : Bool), s.ActsOn e b →
    exec (.write e a 15) s = .next (s.replies kindWrite (writeArgWord a 15) e b (.refused .readOnly))

/-! ### Modes and validation -/

/-- Validation names the first failing entry of the earliest failing stage: relays with their endpoints before their
class, then classes, then ports, then pin map entries with the lower entry they alias (R15 to R17, R68). -/
def Obligations.ValidationNamesTheFirstFailure : Prop :=
  ∀ s : State, s.Canonical →
    let endpointsBad := fun r => 111 < (s.relay r).a.toNat ∨ 111 < (s.relay r).b.toNat ∨ (s.relay r).a = (s.relay r).b
    let relayOk := fun r => (s.relay r).present = true → ¬ endpointsBad r ∧ (s.classOf r).operate ≠ 0
    let classOk := fun c =>
      (s.topology.classes.get .initial c).warn.toNat ≤ (s.topology.classes.get .initial c).retire.toNat
    let portOk := fun i => (s.port i).guarded = true → (s.port i).role = .force ∧ i < 24
    let pin := fun i => s.topology.pinMap.get none i
    (∀ r, (∀ r', r' < r → relayOk r') → (s.relay r).present = true →
      (endpointsBad r → s.validate = { outcome := .badEndpoints, index := r, related := 0 }) ∧
      (¬ endpointsBad r → (s.classOf r).operate = 0 →
        s.validate = { outcome := .badClass, index := r, related := (s.relay r).cls.toNat })) ∧
    ((∀ r, relayOk r) →
      (∀ c, c < 16 → (∀ c', c' < c → classOk c') → ¬ classOk c →
        s.validate = { outcome := .classOrder, index := c, related := 0 }) ∧
      ((∀ c, c < 16 → classOk c) →
        (∀ i, i < 32 → (∀ i', i' < i → portOk i') → ¬ portOk i →
          s.validate = { outcome := .badGuard, index := i, related := 80 + i }) ∧
        ((∀ i, i < 32 → portOk i) →
          ∀ i j p, j < i → pin j = some p → pin i = some p →
            (∀ i' j' q, j' < i' → i' < i → pin j' = some q → pin i' ≠ some q) →
            s.validate = { outcome := .pinAlias, index := i, related := j })))

/-- ENTER_RUN: in CONFIGURE it validates, writes the VALIDATION record, and enters RUN exactly when the tables are valid;
in RUN it answers DONE and in LOCKED_OUT it is refused, changing nothing (R17, R186). -/
def Obligations.EnterRunNeedsValidTables : Prop :=
  ∀ (s : State) (e : Envelope) (a : ControlArg) (b : Bool), s.Canonical → s.ActsOn e b →
    (s.control.mode = .configure → s.TablesValid → exec (.enterRun e a) s =
      .next (State.replies
        { s with control.mode := .run, topology.validation := { outcome := .ok, index := 0, related := 0 } }
        kindControl (controlArgWord a 1) e b .done)) ∧
    (s.control.mode = .configure → ¬ s.TablesValid → s.validate.outcome ≠ .ok ∧ exec (.enterRun e a) s =
      .next (State.replies { s with topology.validation := s.validate }
        kindControl (controlArgWord a 1) e b (.refused .invalidTables))) ∧
    (s.control.mode = .run → exec (.enterRun e a) s =
      .next (s.replies kindControl (controlArgWord a 1) e b .done)) ∧
    (s.control.mode = .lockedOut → exec (.enterRun e a) s =
      .next (s.replies kindControl (controlArgWord a 1) e b (.refused .lockedOut)))

/-- ENTER_CONFIGURE is checked for mode, resolver, engine, holdings and slot in that order; when every check passes the
latched trigger is discarded and the mode becomes CONFIGURE, and nothing else changes (R187). -/
def Obligations.EnterConfigureNeedsAnEmptyBoard : Prop :=
  ∀ (s : State) (e : Envelope) (a : ControlArg) (b : Bool), s.Canonical → s.ActsOn e b →
    let answer := fun t x => exec (.enterConfigure e a) s =
      .next (State.replies t kindControl (controlArgWord a 2) e b x)
    (s.control.mode = .lockedOut → answer s (.refused .lockedOut)) ∧
    (s.control.mode = .configure → answer s .done) ∧
    (s.control.mode = .run →
      (s.resolver.context ≠ none → answer s (.busy .resolving)) ∧
      (s.resolver.context = none →
        (s.engine.phase ≠ .idle → answer s (.refused .notEmpty)) ∧
        (s.engine.phase = .idle →
          ((∃ r, ownerOf s.engine.holdings r ≠ none) → answer s (.refused .notEmpty)) ∧
          ((∀ r, ownerOf s.engine.holdings r = none) →
            (s.gate.slot ≠ none → answer s (.refused .notEmpty)) ∧
            (s.gate.slot = none → answer { s with gate.latch := false, control.mode := .configure } .done)))))

/-- In LOCKED_OUT every CONTROL operation but ACK_ALERT and SOFT_RESET is refused LOCKED_OUT, STEP is refused LOCKED_OUT,
and in every mode an unnamed operation is refused BAD_ARGUMENT. A STEP is refused WRONG_MODE in CONFIGURE, then
BAD_ARGUMENT for a mode or action code of 3, then BUSY (RESOLVING), then BUSY (BOUND) for STAGE and APPLY over a bound plan.
A refused frame changes nothing (R37, R182). -/
def Obligations.StepsAndOperationsRefuseInOrder : Prop :=
  ∀ (s : State) (e : Envelope) (a : ControlArg) (p : StepArg) (b : Bool), s.ActsOn e b →
    let answer := fun (row : Instr × BitVec 2) x =>
      exec row.1 s = .next (s.replies kindStep (stepArgWord p row.2) e b x)
    (s.control.mode = .lockedOut →
      (∀ row ∈ [(Instr.enterRun e a, 1#8), (.enterConfigure e a, 2), (.setGate e a, 3), (.abort e a, 4),
          (.resume e a, 5), (.rollback e a, 6), (.safeOpen e a, 7), (.discardStaged e a, 8)],
        exec row.1 s = .next (s.replies kindControl (controlArgWord a row.2) e b (.refused .lockedOut))) ∧
      ∀ row ∈ [(Instr.stepCheck e p, 0#2), (.stepStage e p, 1), (.stepApply e p, 2), (.stepBadAction e p, 3)],
        answer row (.refused .lockedOut)) ∧
    (∀ operation : Byte, exec (.controlBadOperation e a operation) s =
      .next (s.replies kindControl (controlArgWord a operation) e b (.refused .badArgument))) ∧
    (s.control.mode = .configure →
      ∀ row ∈ [(Instr.stepCheck e p, 0#2), (.stepStage e p, 1), (.stepApply e p, 2), (.stepBadAction e p, 3)],
        answer row (.refused .wrongMode)) ∧
    (s.control.mode = .run →
      answer (.stepBadAction e p, 3) (.refused .badArgument) ∧
      ∀ row ∈ [(Instr.stepCheck e p, 0#2), (.stepStage e p, 1), (.stepApply e p, 2)],
        (p.mode = 3 → answer row (.refused .badArgument)) ∧
        (p.mode ≠ 3 → s.resolver.context ≠ none → answer row (.busy .resolving)) ∧
        (p.mode ≠ 3 → s.resolver.context = none → row.2 ≠ 0 → (∃ q, s.gate.slot = some q ∧ q.bound = true) →
          answer row (.busy .bound)))

/-! ### The gate -/

/-- A TRIG edge takes the first row of R147 that applies: ignored outside RUN, lost to a full latch with TRIG_OVERRUN,
latched while the engine or the resolver is busy or the gate halted, discarded as stale, or TRIG_EMPTY with no plan
(R147, R150). A plan that is not stale starts a STEPPED transition: the fault record cleared, the next number taken, the
base owner map a copy of the holding table, the holding table the plan's target, the pending lists O and C, the slot
empty, and then the first phase (R102). -/
def Obligations.TriggersFollowTheTable : Prop :=
  ∀ s : State, s.ring.reading = none →
    (s.control.mode ≠ .run → exec .trigEdge s = .next s) ∧
    (s.control.mode = .run →
      (s.gate.latch = true → exec .trigEdge s = .next (s.raise .trigOverrun)) ∧
      (s.gate.latch = false →
        (s.engine.phase ≠ .idle ∨ s.resolver.context ≠ none ∨ s.gate.mode = .halt → exec .trigEdge s =
          .next { s with
            gate.latch := true, gate.slot := s.gate.slot.map (fun p => { p with bound := true }) }) ∧
        (s.engine.phase = .idle → s.resolver.context = none → s.gate.mode ≠ .halt →
          (s.gate.slot = none → exec .trigEdge s = .next (s.raise .trigEmpty)) ∧
          ∀ p, s.gate.slot = some p →
            let old := p.baseNumber ≠ s.engine.lastCompleted ∨ ∃ x ∈ p.closes, (s.wearOf x.1).health = .retired
            let started : State :=
              { s with
                engine.fault := { first := none, additional := 0 }, engine.current := s.engine.current + 1,
                engine.transition := some
                  { kind := .stepped, number := s.engine.current + 1, waveLimit := p.waveLimit, guarded := p.guarded,
                    stop := p.stop, hot := false },
                engine.baseMap := s.engine.holdings, engine.holdings := plannedHoldings s.engine.holdings p,
                engine.pendingOpen := p.opens, engine.pendingClose := p.closes.map Prod.fst, gate.slot := none }
            (old → exec .trigEdge s = .next (State.raise { s with gate.slot := none } .stale)) ∧
            (¬ old → exec .trigEdge s = .next started.launch ∧ s.startStepped p = started.launch))))

/-- SET_GATE follows the table of R155: into HALT with reason COMMAND, HALTED raised only on entry; out of HALT with
reason NONE and the latched trigger re-examined, which takes or discards a plan in the slot; an operand that names no mode
is refused (R155). DISCARD_STAGED empties the slot and the latch together, raises no cause and changes nothing else (R145).
-/
def Obligations.SetGateFollowsTheTableAndDiscardEmpties : Prop :=
  ∀ (s : State) (e : Envelope) (a : ControlArg) (b : Bool), s.ActsOn e b → s.control.mode ≠ .lockedOut →
    exec (.discardStaged e a) s = .next (State.replies { s with gate.slot := none, gate.latch := false }
      kindControl (controlArgWord a 8) e b .done) ∧
    let answer := fun t x => exec (.setGate e a) s = .next (State.replies t kindControl (controlArgWord a 3) e b x)
    (3 < a.operand.toNat → answer s (.refused .badArgument)) ∧
    (a.operand = 3 → s.gate.mode = .halt → answer { s with gate.reason := .command } .done) ∧
    (a.operand = 3 → s.gate.mode ≠ .halt →
      answer (State.raise { s with gate.mode := .halt, gate.reason := .command } .halted) .done) ∧
    ∀ m, (a.operand = 0 ∧ m = .normal ∨ a.operand = 1 ∧ m = .single ∨ a.operand = 2 ∧ m = .free) →
      (s.gate.mode ≠ .halt → answer { s with gate.mode := m } .done) ∧
      (s.gate.mode = .halt →
        (s.gate.latch = false ∨ s.engine.phase ≠ .idle ∨ s.resolver.context ≠ none →
          answer { s with gate.mode := m, gate.reason := .none } .done) ∧
        (s.gate.latch = true → s.engine.phase = .idle → s.resolver.context = none → s.gate.slot = none →
          answer (State.raise { s with gate.mode := m, gate.reason := .none, gate.latch := false } .trigEmpty) .done) ∧
        ∀ p, s.gate.latch = true → s.engine.phase = .idle → s.resolver.context = none → s.gate.slot = some p →
          let left : State := { s with gate.mode := m, gate.reason := .none, gate.latch := false }
          let old := p.baseNumber ≠ s.engine.lastCompleted ∨ ∃ x ∈ p.closes, (s.wearOf x.1).health = .retired
          (old → answer (State.raise { left with gate.slot := none } .stale) .done) ∧
          (¬ old → answer (left.startStepped p) .done))

/-- ACK_ALERT clears the causes its operand names except LOCKOUT, and the reset record when it names RESET; every other
cause, the mask and all other state stay (R190). -/
def Obligations.AckAlertClearsNamedCauses : Prop :=
  ∀ (s : State) (e : Envelope) (a : ControlArg) (b : Bool), s.ActsOn e b →
    ∃ t : State, exec (.ackAlert e a) s = .next (t.replies kindControl (controlArgWord a 9) e b .done) ∧
      t = { s with alerts := t.alerts, control.resetRecord := t.control.resetRecord } ∧
      (∀ c, t.isRaised c = (s.isRaised c && (decide (c = .lockout) || !a.operand.getLsbD c.bit))) ∧
      t.control.resetRecord = if a.operand.getLsbD 0 then .clear else s.control.resetRecord

/-! ### Alerts -/

/-- READY is released exactly in CONFIGURE, or in RUN with the engine IDLE, no trigger latched and no APPLY resolution in
flight; ALERT is pulled low exactly in LOCKED_OUT or while a cause is pending that is not masked (R115, R191; a mask bit of
1 masks: log 18). The words of STATUS, FAULT, RESULT, HOLDINGS, ACTUAL and VALIDATION hold each field of section 10.7 in its
place, and 0 in every bit outside them (R17, R27, R56, R99, R124, R130, R142, R179, R194; an absent chain or relay of the
FAULT words reads as all ones: DEDUCED, log 17; what STATUS shows is computed: log 19; that HOT reads 0 with no transition
in flight or suspended is the model's choice: DESIGN CHOICE, log 32). -/
def Obligations.LinesAndRecordWordsShowTheState : Prop :=
  ∀ (s : State) (i : Nat),
    let kindOf := fun t : Transition => [TransitionKind.stepped, .rollback, .safeOpen].idxOf t.kind + 1
    let phaseOf := fun p : FaultPhase => [FaultPhase.guard, .opening, .closing].idxOf p + 1
    let shown := match s.engine.phase with
      | .guarding => some FaultPhase.guard
      | .opening => some .opening
      | .closing => some .closing
      | .suspended => s.engine.suspendedPhase
      | .idle | .lockout => none
    let r := s.resolver.result
    (s.readyReleased = true ↔ s.control.mode = .configure ∨ s.control.mode = .run ∧ s.engine.phase = .idle ∧
      s.gate.latch = false ∧ ¬ ∃ ctx, s.resolver.context = some ctx ∧ ctx.action = .apply) ∧
    (s.alertLow = true ↔ s.control.mode = .lockedOut ∨
      ∃ c : Cause, s.isRaised c = true ∧ s.control.params.mask.getLsbD c.bit = false) ∧
    (Laid (s.wordAt .status 0)
        [⟨0, 2, [Mode.configure, .run, .lockedOut].idxOf s.control.mode⟩, ⟨4, 4, s.ring.address.toNat⟩,
          ⟨8, 3, [EnginePhase.idle, .guarding, .opening, .closing, .suspended, .lockout].idxOf s.engine.phase⟩,
          ⟨12, 1, s.resolver.context.isSome.toNat⟩,
          ⟨13, 2, s.resolver.context.elim 0 (fun ctx => [Action.check, .stage, .apply].idxOf ctx.action)⟩,
          ⟨16, 1, s.readyReleased.toNat⟩, ⟨17, 1, s.alertLow.toNat⟩, ⟨18, 1, s.gate.latch.toNat⟩,
          ⟨20, 2, s.gate.slot.elim 0 (fun p => if p.bound then 2 else 1)⟩,
          ⟨24, 2, [GateMode.normal, .single, .free, .halt].idxOf s.gate.mode⟩,
          ⟨28, 3, [HaltReason.none, .command, .stopMark, .singleDone, .fault].idxOf s.gate.reason⟩] ∧
      Laid (s.wordAt .status 1)
        [⟨0, 2, s.engine.transition.elim 0 kindOf⟩, ⟨4, 2, shown.elim 0 phaseOf⟩,
          ⟨6, 1, s.engine.transition.elim 0 (fun t => t.hot.toNat)⟩,
          ⟨8, 2, [SuspendReason.none, .fault, .aborted].idxOf s.engine.suspension⟩, ⟨16, 5, s.wear.notices.length⟩,
          ⟨24, 1, s.control.resetRecord.powerOn.toNat⟩, ⟨25, 1, s.control.resetRecord.rstn.toNat⟩,
          ⟨26, 1, s.control.resetRecord.softFrame.toNat⟩, ⟨27, 1, s.control.resetRecord.linkLoss.toNat⟩] ∧
      s.wordAt .status 2 = s.engine.current ∧ s.wordAt .status 3 = s.engine.lastCompleted ∧
      Laid (s.wordAt .status 4) [⟨0, 11, s.engine.pendingOpen.length⟩, ⟨16, 11, s.engine.pendingClose.length⟩] ∧
      (∀ c : Cause, (s.wordAt .status 5).getLsbD c.bit = s.isRaised c) ∧ (s.wordAt .status 5).toNat < 2 ^ 14 ∧
      (s.gate.slot = none → s.wordAt .status 6 = 0 ∧ s.wordAt .status 7 = 0 ∧ s.wordAt .status 8 = 0) ∧
      (∀ p, s.gate.slot = some p → s.wordAt .status 7 = p.baseNumber ∧
        s.wordAt .status 8 = BitVec.ofNat 32 p.duration ∧
        Laid (s.wordAt .status 6)
          [⟨0, 8, p.routeSet.toNat⟩, ⟨8, 2, [Action.check, .stage, .apply].idxOf p.action⟩]) ∧
      (s.engine.fault.first = none →
        Laid (s.wordAt .fault 0) [⟨12, 4, 15⟩, ⟨16, 8, s.engine.fault.additional⟩] ∧ s.wordAt .fault 1 = 0 ∧
        Laid (s.wordAt .fault 2) [⟨0, 11, 2047⟩]) ∧
      ∀ f, s.engine.fault.first = some f →
        Laid (s.wordAt .fault 0)
          [⟨0, 2, [FaultKind.chain, .contact, .guardTimeout].idxOf f.kind + 1⟩, ⟨4, 2, phaseOf f.phase⟩,
            ⟨8, 2, [TransitionKind.stepped, .rollback, .safeOpen].idxOf f.transition + 1⟩,
            ⟨12, 4, orOnes 4 (f.chain.map Fin.val)⟩, ⟨16, 8, s.engine.fault.additional⟩] ∧
        s.wordAt .fault 1 = f.number ∧ Laid (s.wordAt .fault 2) [⟨0, 11, orOnes 11 f.relay⟩, ⟨16, 11, f.count⟩]) ∧
    (Laid (s.wordAt .result 0)
        [⟨0, 4, [ResolveOutcome.none, .ok, .badSet, .unmapped, .unroutable, .noTrunk, .retired, .overlap, .short,
            .crossSite, .cancelled].idxOf r.outcome⟩,
          ⟨4, 2, [Action.check, .stage, .apply].idxOf r.action⟩, ⟨6, 2, [StepMode.replace, .add, .clear].idxOf r.mode⟩,
          ⟨8, 8, r.routeSet.toNat⟩, ⟨16, 9, r.effective.toNat⟩, ⟨28, 1, r.replaced.toNat⟩] ∧
      s.wordAt .result 1 = r.baseNumber ∧
      Laid (s.wordAt .result 2)
        [⟨0, 4, orOnes 4 (r.owner.map ownerNumber)⟩, ⟨4, 4, orOnes 4 (r.holder.map ownerNumber)⟩,
          ⟨8, 12, orOnes 12 r.entryIndex⟩, ⟨20, 11, orOnes 11 r.relay⟩] ∧
      Laid (s.wordAt .result 3)
        [⟨0, 8, orOnes 8 r.node1⟩, ⟨8, 8, orOnes 8 r.node2⟩, ⟨16, 8, orOnes 8 r.net⟩] ∧
      Laid (s.wordAt .result 4) [⟨0, 11, r.openCount⟩, ⟨16, 11, r.closeCount⟩] ∧
      Laid (s.wordAt .result 5) [⟨0, 11, r.openWaves⟩, ⟨16, 11, r.closeWaves⟩] ∧
      Laid (s.wordAt .result 6) [⟨0, 11, r.reassignedCount⟩] ∧ s.wordAt .result 7 = BitVec.ofNat 32 r.duration ∧
      Laid (s.wordAt .result 8) [⟨0, 24, r.guarded.toNat⟩]) ∧
    Laid (s.wordAt .holdings i) [⟨0, 4, (ownerOf s.engine.holdings i).elim 0 ownerNumber⟩] ∧
    Laid (s.wordAt .actual i)
      [⟨0, 2, [Contact.opened, .closed, .unknown].idxOf (Table.get .opened s.engine.actual i)⟩,
        ⟨4, 1, if i ∈ s.engine.pendingOpen ∨ i ∈ s.engine.pendingClose then 1 else 0⟩] ∧
    Laid (s.wordAt .validation 0)
      [⟨0, 3, [ValidationOutcome.none, .ok, .badEndpoints, .badClass, .classOrder, .badGuard, .pinAlias].idxOf
          s.topology.validation.outcome⟩,
        ⟨8, 10, s.topology.validation.index⟩, ⟨20, 10, s.topology.validation.related⟩]

/-- A POLL is taken whatever its destination and status: it counts this controller, and word 0 takes its claim exactly
when the winner is not valid, of lower level, or of equal level and lower arbitration number. The claim carries the
highest level among the causes pending and not masked. No state changes, and an empty POLL is refused (R184, R192; log 18). -/
def Obligations.PollsKeepTheGreatestClaim : Prop :=
  ∀ (s : State) (e : Envelope) (arg : Word), s.Listens → e.marks.getLsbD 0 = false → LengthAgrees e →
    (e.payload = [] → exec (.poll e arg) s = .next (s.send (sealedWords kindPoll arg
      { e with refusals := e.refusals ||| (1#16 <<< s.ring.address.toNat) }))) ∧
    (∀ c, s.calls c = true → c.level ≤ s.claimLevel) ∧
    (s.claimLevel = 0 ∧ (∀ c, s.calls c = false) ∨ ∃ c, s.calls c = true ∧ c.level = s.claimLevel) ∧
    ∀ w ws, e.payload = w :: ws →
      let claim : Word := 1#1 ++ 0#20 ++ BitVec.ofNat 3 s.claimLevel ++ s.control.params.arbitration ++ s.ring.address
      let wins := s.claimLevel ≠ 0 ∧ (w.getLsbD 31 = false ∨ (w.extractLsb' 8 3).toNat < s.claimLevel ∨
        (w.extractLsb' 8 3).toNat = s.claimLevel ∧ w.extractLsb' 4 4 < s.control.params.arbitration)
      (wins → exec (.poll e arg) s = .next (s.send (sealedWords kindPoll arg
        { e with accepts := if e.accepts = 255 then 255 else e.accepts + 1, payload := claim :: ws }))) ∧
      (¬ wins → exec (.poll e arg) s = .next (s.send (sealedWords kindPoll arg
        { e with accepts := if e.accepts = 255 then 255 else e.accepts + 1 })))

/-! ### Steps and resolution -/

/-- A STEP that passes the four checks of R37 is ACCEPTED: the resolver takes the context of R36, with the base of R38,
the effective mask of R39, the wave limit, the set in use of R34 with the test of R20, and the starting target of its mode
(R30 to R32; that it stands in the context from acceptance on: DEDUCED, log 13); nothing else changes. -/
def Obligations.AcceptedStepsFixTheirContext : Prop :=
  ∀ (s : State) (e : Envelope) (a : StepArg) (b : Bool), s.ActsOn e b → s.control.mode = .run → a.mode ≠ 3 →
    s.resolver.context = none →
    ∀ row ∈ [(Instr.stepCheck e a, 0#2, Action.check), (.stepStage e a, 1, .stage), (.stepApply e a, 2, .apply)],
      (row.2.2 = .check ∨ ∀ p, s.gate.slot = some p → p.bound = false) →
      ∃ ctx : Resolution,
        exec row.1 s = .next (State.replies { s with resolver.context := some ctx }
          kindStep (stepArgWord a row.2.1) e b .accepted) ∧
        ctx.routeSet = a.routeSet ∧ ctx.requested = a.owners ∧ ctx.action = row.2.2 ∧
        (a.mode = 0 ∧ ctx.mode = .replace ∨ a.mode = 1 ∧ ctx.mode = .add ∨ a.mode = 2 ∧ ctx.mode = .clear) ∧
        ctx.base = s.engine.holdings ∧
        ctx.baseNumber = (if s.engine.phase = .idle then s.engine.lastCompleted else s.engine.current) ∧
        (∀ k, k < 8 → ctx.effective.getLsbD k = (a.owners.getLsbD k && s.topology.sites.get false k)) ∧
        ctx.effective.getLsbD 8 = a.owners.getLsbD 8 ∧
        (Table.wf none s.engine.holdings → ∀ r, ownerOf ctx.target r =
          if a.mode ≠ 1 ∧ ∃ o, ownerOf ctx.base r = some o ∧ maskHas ctx.effective o = true then none
          else ownerOf ctx.base r) ∧ ctx.waveLimit = s.control.params.waveLimit ∧
        (a.mode = 2 → ctx.usable = true ∧ ctx.stop = false ∧ ctx.inUse = none) ∧
        (a.mode ≠ 2 →
          let entry := s.store.directory.get .initial a.routeSet.toNat
          let usable := entry.defined = true ∧ entry.first.toNat + entry.count.toNat ≤ 2048
          (ctx.usable = true ↔ usable) ∧ ctx.stop = entry.stop ∧
          ∃ u, ctx.inUse = some u ∧ u.dir = a.routeSet.toNat ∧
            (usable → u.first = entry.first.toNat ∧ u.count = entry.count.toNat) ∧ (¬ usable → u.count = 0))

/-- A resolution ends by writing its record, which leaves the resolver IDLE and raises RESOLVED, or RESOLVE_FAIL with what
stood in the way. STAGE places its plan in the slot; CHECK and a failure leave the slot alone (R56, R57, R58, R59). The
latched trigger is then re-examined: with the engine not IDLE or the gate in HALT it stays latched; otherwise it takes the
plan in the slot, discards it as stale, or raises TRIG_EMPTY, before the cause of the resolution is raised (R149, R150). The
work of the resolution is read at its completion (DEDUCED, log 13). -/
def Obligations.ResolutionsEndWithTheirRecord : Prop :=
  ∀ (s : State) (ctx : Resolution) (result : ResultRecord) (slot : Option Plan) (cause : Cause),
    s.ring.reading = none → s.resolver.context = some ctx →
    ((∃ c, s.resolve ctx = .error c ∧ result = failedRecord ctx c ∧ slot = s.gate.slot ∧ cause = .resolveFail) ∨
      ∃ p, s.resolve ctx = .ok p ∧ ctx.action ≠ .apply ∧
        result = okRecord ctx p (decide (ctx.action = .stage) && s.gate.slot.isSome) ∧
        slot = (if ctx.action = .check then s.gate.slot else some { p with bound := s.gate.latch }) ∧
        cause = .resolved) →
    let ended : State := { s with resolver := { context := none, result := result }, gate.slot := slot }
    (s.gate.latch = false ∨ s.engine.phase ≠ .idle ∨ s.gate.mode = .halt →
      exec .resolutionComplete s = .next (ended.raise cause)) ∧
    (s.gate.latch = true → s.engine.phase = .idle → s.gate.mode ≠ .halt →
      let freed : State := { ended with gate.latch := false }
      (slot = none → exec .resolutionComplete s = .next ((freed.raise .trigEmpty).raise cause)) ∧
      ∀ q, slot = some q →
        let old := q.baseNumber ≠ s.engine.lastCompleted ∨ (∃ x ∈ q.closes, (s.wearOf x.1).health = .retired);
        (old → exec .resolutionComplete s =
          .next ((State.raise { freed with gate.slot := none } .stale).raise cause)) ∧
        (¬ old → exec .resolutionComplete s = .next ((freed.startStepped q).raise cause)))

/-- An APPLY that ends OK stages its plan, has the latched trigger re-examined, raises RESOLVED, and delivers its own
trigger last, by the four rows of R151: with the latch empty, a free engine takes the plan or finds it stale, and a busy
engine or a halted gate leaves it bound and latched; with the latch full, a free engine lets the latched trigger take the
plan, or find it stale, and the APPLY's own trigger is latched with the slot EMPTY or raises TRIG_EMPTY, and otherwise it
is lost with TRIG_OVERRUN (R58, R60, R149, R151). -/
def Obligations.ApplyDeliversItsTriggerLast : Prop :=
  ∀ (s : State) (ctx : Resolution) (p : Plan), s.ring.reading = none → s.resolver.context = some ctx →
    s.resolve ctx = .ok p → ctx.action = .apply → s.control.mode = .run →
    let written : State := { s with resolver := { context := none, result := okRecord ctx p s.gate.slot.isSome } }
    let old := p.baseNumber ≠ s.engine.lastCompleted ∨ ∃ x ∈ p.closes, (s.wearOf x.1).health = .retired
    let answer := fun t => exec .resolutionComplete s = .next t
    (s.engine.phase ≠ .idle ∨ s.gate.mode = .halt →
      (s.gate.latch = false →
        answer (State.raise { written with gate.slot := some { p with bound := true }, gate.latch := true } .resolved)) ∧
      (s.gate.latch = true → answer (State.raise
        (State.raise { written with gate.slot := some { p with bound := true } } .resolved) .trigOverrun))) ∧
    (s.engine.phase = .idle → s.gate.mode ≠ .halt →
      (s.gate.latch = false →
        (old → answer (State.raise (State.raise { written with gate.slot := none } .resolved) .stale)) ∧
        (¬ old → answer (State.startStepped
          (State.raise { written with gate.slot := some { p with bound := false } } .resolved)
          { p with bound := false }))) ∧
      (s.gate.latch = true →
        let freed : State := { written with gate.latch := false, gate.slot := some { p with bound := true } }
        let started := (freed.startStepped { p with bound := true }).raise .resolved
        (old → answer (State.raise
          (State.raise (State.raise { freed with gate.slot := none } .stale) .resolved) .trigEmpty)) ∧
        (¬ old →
          (started.engine.phase ≠ .idle ∨ started.gate.mode = .halt →
            answer { started with gate.latch := true }) ∧
          (started.engine.phase = .idle → started.gate.mode ≠ .halt → answer (started.raise .trigEmpty)) ∧
          (p.guarded ≠ 0 ∨ p.opens ≠ [] ∨ p.closes ≠ [] → started.engine.phase ≠ .idle))))

/-- The pair lookup takes the present relay of lowest index that joins the two nodes in either order, whatever its health
or wear, and finds none exactly when no present relay joins them (R5). -/
def Obligations.PairLookupTakesTheLowestRelay : Prop :=
  ∀ (s : State) (x y : Nat), s.Canonical →
    (∀ r, s.pairLookup x y = some r ↔ s.JoinsPair r x y ∧ ∀ r', r' < r → ¬ s.JoinsPair r' x y) ∧
    (s.pairLookup x y = none ↔ ∀ r, ¬ s.JoinsPair r x y)

/-- A resolution whose set is not usable ends BAD_SET. Otherwise the entries of the run are applied in pool order, once for
each owner of the effective mask, SITE0 to SITE7 and then COMMON, to the target under construction, which is the starting
target of the step mode (AcceptedStepsFixTheirContext); the first entry
that fails is the outcome, then the first net that fails, and a target that passes gives the plan (R30 to R32, R39, R41,
R48, R55). -/
def Obligations.ResolutionsApplyEntriesInOrder : Prop :=
  ∀ (s : State) (ctx : Resolution), Table.wf none ctx.base →
    let owners := [Owner.site 0, .site 1, .site 2, .site 3, .site 4, .site 5, .site 6, .site 7, .common].filter
      (fun o => ctx.effective.getLsbD (match o with | .site k => k.val | .common => 8))
    let run : List Nat := match ctx.inUse with
      | some u => List.range' u.first u.count
      | none => []
    (ctx.usable = false → s.resolve ctx = .error (Conflict.bare .badSet)) ∧
    (∀ r, ownerOf (startingTarget ctx.mode ctx.base ctx.effective) r =
      if ctx.mode ≠ .add ∧ ∃ o ∈ owners, ownerOf ctx.base r = some o then none else ownerOf ctx.base r) ∧
    s.buildTarget ctx = (owners.flatMap (fun o => run.map (fun i => (o, i)))).foldlM
      (fun t x => s.applyEntry ctx x.1 t x.2) ctx.target ∧
    (ctx.usable = true →
      (∀ c, s.buildTarget ctx = .error c → s.resolve ctx = .error c) ∧
      ∀ target, s.buildTarget ctx = .ok target →
        (∀ c, s.netCheck target = some c → s.resolve ctx = .error c) ∧
        (s.netCheck target = none → ∃ p, s.resolve ctx = .ok p ∧
          p.opens = openSet ctx.base target ∧ p.closes = closeSet ctx.base target ∧
          p.reassigned = reassignedSet ctx.base target ∧ p.routeSet = ctx.routeSet ∧ p.action = ctx.action ∧
          p.stop = ctx.stop ∧ p.baseNumber = ctx.baseNumber ∧ p.waveLimit = ctx.waveLimit ∧
          p.openWaves = (wavesOf ctx.waveLimit p.opens).length ∧
          p.closeWaves = (wavesOf ctx.waveLimit (p.closes.map Prod.fst)).length ∧
          p.guarded = s.guardSet ctx.base target p.opens (p.closes.map Prod.fst) ∧ p.bound = false))

/-- A PATH entry gives a site its pin relay and its port relay over the entry's trunk, or over the first trunk that an
AUTO entry's two passes take, and COMMON skips it; a DIRECT entry gives COMMON its relay, and sites skip it. What stands in
the way is UNMAPPED, UNROUTABLE, RETIRED, OVERLAP or NO_TRUNK, with the owner, the pool index and the nodes or relay
concerned (R23, R25, R41 to R47, R56). -/
def Obligations.EntriesGiveTheirRelaysOrFail : Prop :=
  ∀ (s : State) (ctx : Resolution) (t : Holdings) (index : Nat), Table.wf none t →
    let entry := s.store.pool.get .initial index
    let gives := fun o rs => ∃ u, s.applyEntry ctx o t index = .ok u ∧ GivenTo t u o rs
    let fails := fun o (c : Conflict) =>
      s.applyEntry ctx o t index = .error { c with owner := some o, entryIndex := some index }
    (∀ r, entry = .direct r →
      (∀ site, s.applyEntry ctx (.site site) t index = .ok t) ∧
      ((s.relay r.toNat).present = false → fails .common { Conflict.bare .unroutable with relay := some r.toNat }) ∧
      ((s.relay r.toNat).present = true →
        (∀ c, s.Bars ctx t .common r.toNat c → fails .common c) ∧
        (s.Admits ctx t .common r.toNat → gives .common [r.toNat]))) ∧
    ∀ pin port trunk, entry = .path pin port trunk →
      s.applyEntry ctx .common t index = .ok t ∧
      ∀ site : Fin 8,
        let o := Owner.site site
        let line := s.topology.pinMap.get none (site.val * 32 + pin.toNat)
        let node := s.topology.portMap.get none (site.val * 16 + port.toNat)
        (line = none ∨ node = none → fails o (Conflict.bare .unmapped)) ∧
        ∀ l n, line = some l → node = some n →
          let p := l.toNat
          let q := 80 + n.toNat
          (∀ k, trunk = .fixed k →
            let x := 64 + k.toNat
            (s.pairLookup p x = none →
              fails o { Conflict.bare .unroutable with node1 := some p, node2 := some x }) ∧
            ∀ a, s.pairLookup p x = some a →
              (s.pairLookup x q = none →
                fails o { Conflict.bare .unroutable with node1 := some x, node2 := some q }) ∧
              ∀ b, s.pairLookup x q = some b →
                (∀ c, s.Bars ctx t o a c → fails o c) ∧
                (s.Admits ctx t o a → ∀ c, s.Bars ctx t o b c → fails o c) ∧
                (s.Admits ctx t o a → s.Admits ctx t o b → gives o [a, b])) ∧
          (trunk = .auto →
            (∀ k a b, k < 16 → s.Reuses ctx t o p q k a b → (∀ j, j < k → ∀ x y, ¬ s.Reuses ctx t o p q j x y) →
              gives o [a, b]) ∧
            ((∀ j, j < 16 → ∀ x y, ¬ s.Reuses ctx t o p q j x y) →
              (∀ k a b, k < 16 → s.TakesFresh ctx t o p q k a b →
                (∀ j, j < k → ∀ x y, ¬ s.TakesFresh ctx t o p q j x y) → gives o [a, b]) ∧
              ((∀ j, j < 16 → ∀ x y, ¬ s.TakesFresh ctx t o p q j x y) →
                fails o { Conflict.bare .noTrunk with node1 := some p, node2 := some q })))

/-- The delta sorts every relay by its owners in the base and in the target into one of five cases; O, C and the
reassigned list are ascending, and O and C hold at most 1024 relays together (R51). -/
def Obligations.DeltaSortsEveryRelay : Prop :=
  ∀ base target : Holdings, Table.wf none base → Table.wf none target →
    (∀ r, r ∈ openSet base target ↔ ownerOf base r ≠ none ∧ ownerOf target r = none) ∧
    (∀ r o, (r, o) ∈ closeSet base target ↔ ownerOf base r = none ∧ ownerOf target r = some o) ∧
    (∀ r o, (r, o) ∈ reassignedSet base target ↔
      ownerOf target r = some o ∧ ∃ x, ownerOf base r = some x ∧ o ≠ x) ∧
    Ascending (openSet base target) ∧ Ascending ((closeSet base target).map Prod.fst) ∧
    Ascending ((reassignedSet base target).map Prod.fst) ∧
    ((∀ r, 1024 ≤ r → ownerOf base r = none ∧ ownerOf target r = none) →
      (openSet base target).length + (closeSet base target).length ≤ 1024)

/-- A resolution never takes a relay from an owner outside the effective mask, never gives one to such an owner, and
never closes or reassigns a RETIRED relay. ADD drops no relay: its plan opens and reassigns nothing. CLEAR adds none: its
plan opens exactly the relays of the masked owners and closes and reassigns nothing (R30 to R32, R42, R43). The health is
read as it stands at the completion (DEDUCED, log 13). -/
def Obligations.ResolutionRespectsOwnersModesAndRetirement : Prop :=
  ∀ (s : State) (ctx : Resolution) (p : Plan), s.Canonical → Table.wf none ctx.base →
    ctx.target = startingTarget ctx.mode ctx.base ctx.effective → s.resolve ctx = .ok p →
    (∀ r o, ownerOf ctx.base r = some o → maskHas ctx.effective o = false →
      r ∉ p.opens ∧ r ∉ p.reassigned.map Prod.fst) ∧
    (∀ x ∈ p.closes ++ p.reassigned, maskHas ctx.effective x.2 = true ∧ (s.wearOf x.1).health ≠ .retired) ∧
    (ctx.mode = .add → p.opens = [] ∧ p.reassigned = []) ∧
    (ctx.mode = .clear → ctx.inUse = none → p.closes = [] ∧ p.reassigned = [] ∧
      ∀ r, r ∈ p.opens ↔ ∃ o, ownerOf ctx.base r = some o ∧ maskHas ctx.effective o = true)

/-- The net check passes exactly the holdings whose nets join no two FORCE port nodes and no pin lines of two sites, a
net being the nodes joined through held relays. Otherwise the net of lowest identity that fails is named: SHORT with its
two lowest FORCE nodes, or CROSS_SITE with the lowest pin line of each of its two lowest sites (R48 to R50). -/
def Obligations.NetCheckPassesExactlySoundNets : Prop :=
  ∀ (s : State) (h : Holdings), Table.wf none h → s.NodesValid h →
    (s.netsPass h = true ↔ s.NetsSound h) ∧
    ∀ c, s.netCheck h = some c → ∃ n x y,
      c = { Conflict.bare c.outcome with node1 := some x, node2 := some y, net := some n } ∧ s.IsIdentity h n ∧
      (∀ m, m < n → s.IsIdentity h m → s.NoShort h m ∧ s.NoCross h m) ∧
      (c.outcome = .short ∧ x < y ∧ (∀ z ∈ [x, y], s.Joined h n z ∧ s.isForce z = true) ∧
          (∀ z, s.Joined h n z → s.isForce z = true → z = x ∨ y ≤ z) ∨
        c.outcome = .crossSite ∧ s.NoShort h n ∧ ∃ a b, a < b ∧ s.SiteIn h n a x ∧ s.SiteIn h n b y ∧
          ∀ d z, s.SiteIn h n d z → (d = a ∧ x ≤ z) ∨ (d = b ∧ y ≤ z) ∨ b < d)

/-- Every plan a resolution builds carries the base holdings to holdings whose nets are sound: starting it puts every
relay of O to NONE, gives C and the reassigned relays their owners, keeps every other holding, and leaves no net with two
FORCE port nodes or pin lines of two sites (R28, R48). -/
def Obligations.PlansCarryTheBoardToSoundNets : Prop :=
  ∀ (s : State) (ctx : Resolution) (p : Plan), s.Canonical → s.TablesValid → Table.wf none ctx.base →
    ctx.target = startingTarget ctx.mode ctx.base ctx.effective →
    (∀ r, ownerOf ctx.base r ≠ none → (s.relay r).present = true) → s.resolve ctx = .ok p →
    s.NetsSound (plannedHoldings ctx.base p) ∧
    ∀ r, ownerOf (plannedHoldings ctx.base p) r =
      if r ∈ p.opens then none
      else match (p.closes ++ p.reassigned).find? (fun x => decide (x.1 = r)) with
        | some x => some x.2
        | none => ownerOf ctx.base r

/-- A guarded FORCE port node is in a plan's guard set exactly when it lies in a net of the base that holds an endpoint
of a relay of O, or in a net of the target that holds an endpoint of a relay of C (R52). -/
def Obligations.GuardSetCoversSwitchedNets : Prop :=
  ∀ (s : State) (base target : Holdings), Table.wf none base → Table.wf none target → s.NodesValid base →
    s.NodesValid target →
    ∀ k, k < 24 →
      ((s.guardSet base target (openSet base target) ((closeSet base target).map Prod.fst)).getLsbD k = true ↔
        ((s.port k).role = .force ∧ (s.port k).guarded = true) ∧
          ((∃ r, (ownerOf base r ≠ none ∧ ownerOf target r = none) ∧
              (s.Joined base (s.relay r).a.toNat (80 + k) ∨ s.Joined base (s.relay r).b.toNat (80 + k))) ∨
            ∃ r, (ownerOf base r = none ∧ ownerOf target r ≠ none) ∧
              (s.Joined target (s.relay r).a.toNat (80 + k) ∨ s.Joined target (s.relay r).b.toNat (80 + k))))

/-- A set is cut in ascending order into waves of W relays, the last holding the remainder: ⌈n/W⌉ waves, none empty. A
plan's planned duration is the sum of its open wave times and its close wave times, a wave's time is the largest time
among its relays, and the sum lies between 0 and 402,647,040 µs (R53, R54, R73, R74). -/
def Obligations.PlansCutWavesAndSumTheirTimes : Prop :=
  (∀ (w : Nat) (rs : List Nat), 1 ≤ w →
    (wavesOf w rs).flatten = rs ∧ (wavesOf w rs).length = (rs.length + (w - 1)) / w ∧
    ∀ i (h : i < (wavesOf w rs).length), (wavesOf w rs)[i] = (rs.drop (i * w)).take w ∧ (wavesOf w rs)[i] ≠ []) ∧
  ∀ (s : State) (ctx : Resolution) (base target : Holdings), ctx.base = base → Table.wf none base →
    Table.wf none target → (∀ r, 1024 ≤ r → ownerOf base r = none ∧ ownerOf target r = none) → 1 ≤ ctx.waveLimit →
    s.InRange →
    let p := s.planFor ctx target
    p.duration = ((wavesOf ctx.waveLimit p.opens).map (s.waveTime false)).sum +
        ((wavesOf ctx.waveLimit (p.closes.map Prod.fst)).map (s.waveTime true)).sum ∧
      p.duration ≤ 402647040 ∧
      ∀ (close : Bool) (rs : List Nat), (∀ r ∈ rs, s.relayTime close r ≤ s.waveTime close rs) ∧
        (rs ≠ [] → ∃ r ∈ rs, s.relayTime close r = s.waveTime close rs)

/-! ### Switching times and wear -/

/-- The derated time of a base time b is b plus the smallest integer not less than the exact quotient of R70, and lies
between b and 3b, with the special values of R71; a relay's open time is derated from release, its close time from
operate plus settle, within the ranges of R72 (R70 to R72). -/
def Obligations.DeratedTimesRoundUp : Prop :=
  ∀ (c : ClassEntry) (w b : Nat), c.ratedLife ≠ 0 → c.derate.toNat ≤ 100 →
    let life := c.ratedLife.toNat * 1000
    derated c w b = b + extraTime c w b ∧
    (∀ n, extraTime c w b ≤ n ↔ b * min w (2 * life) * c.derate.toNat ≤ n * (life * 100)) ∧
    b ≤ derated c w b ∧ derated c w b ≤ 3 * b ∧ (w = 0 ∨ c.derate = 0 → derated c w b = b) ∧
    (b = 0 → derated c w b = 0) ∧
    (2 * life ≤ w → derated c w b = b + (2 * b * c.derate.toNat + 99) / 100) ∧
    (2 * life ≤ w → c.derate = 100 → derated c w b = 3 * b) ∧
    switchTime c false w = derated c w c.release.toNat ∧
    switchTime c true w = derated c w (c.operate.toNat + c.settle.toNat) ∧ switchTime c false w ≤ 196605 ∧
    switchTime c true w ≤ 393210 ∧ (c.operate ≠ 0 → 1 ≤ switchTime c true w)

/-- A confirmed relay takes its new state, leaves its pending list and adds to its wear count H when HOT, 1 for a cold
close and 0 for a cold open, saturating. The thresholds are the shares of rated life rounded down. A warn crossing hands
on a WARN notice, and a retire crossing makes the relay RETIRED and hands on a RETIRE notice after it; each is appended
with WEAR while the list holds fewer than 16, and is lost with NOTICE_FULL otherwise (R76, R77, R79 to R81, R110, R163,
R165). -/
def Obligations.ConfirmationsCountWearAndNotify : Prop :=
  ∀ (s : State) (close : Bool) (r : Nat),
    let life := (s.classOf r).ratedLife.toNat * 1000
    let warn := life * (s.classOf r).warn.toNat / 100
    let retire := life * (s.classOf r).retire.toNat / 100
    let weight := if ∃ t, s.engine.transition = some t ∧ t.hot = true then s.control.params.hotWeight
      else if close then 1 else 0
    let before := (s.wearOf r).count.toNat
    let after := min (before + weight) 4294967295
    let retires := before < retire ∧ retire ≤ after
    let handed : List Notice :=
      (if before < warn ∧ warn ≤ after then [{ relay := r, kind := .warn, count := BitVec.ofNat 32 after }] else []) ++
        (if retires then [{ relay := r, kind := .retire, count := BitVec.ofNat 32 after }] else [])
    let t := s.confirm close r
    (warnThreshold (s.classOf r) = warn ∧ retireThreshold (s.classOf r) = retire ∧ warn ≤ 167114250 ∧
      retire ≤ 167114250 ∧ ((s.classOf r).ratedLife ≠ 0 → (s.classOf r).warn ≠ 0 → 10 ≤ warn)) ∧
    t = { s with
      engine.actual := t.engine.actual, engine.pendingOpen := s.engine.pendingOpen.filter (fun x => x ≠ r),
      engine.pendingClose := s.engine.pendingClose.filter (fun x => x ≠ r), wear := t.wear, alerts := t.alerts } ∧
    (∀ x, Table.get .opened t.engine.actual x =
      if x = r then (if close then .closed else .opened) else Table.get .opened s.engine.actual x) ∧
    (t.wearOf r).count.toNat = after ∧ (t.wearOf r).health = (if retires then .retired else (s.wearOf r).health) ∧
    (∀ x, x ≠ r → t.wearOf x = s.wearOf x) ∧
    (s.wear.notices.length ≤ 16 →
      t.wear.notices = (s.wear.notices ++ handed).take 16 ∧
      (t.isRaised .wear = true ↔ s.isRaised .wear = true ∨ handed ≠ [] ∧ s.wear.notices.length < 16) ∧
      (t.isRaised .noticeFull = true ↔ s.isRaised .noticeFull = true ∨ 16 < s.wear.notices.length + handed.length)) ∧
    ∀ c, c ≠ .wear → c ≠ .noticeFull → t.isRaised c = s.isRaised c

/-! ### The transition engine -/

/-- A transition that starts or resumes guards first when its guard set is not empty, with the timeout and policy of
CONFIG; otherwise, and after every phase, it opens while pending-open is not empty, then closes while pending-close is not
empty, and then completes: QG released, its number last completed, the base owner map emptied, DONE raised, a STEPPED
completion told to the gate, the engine IDLE, and a latched trigger examined last (R103, R104, R113, R149, R153). -/
def Obligations.PhasesFollowTheTable : Prop :=
  ∀ (s : State) (t : Transition), s.engine.transition = some t →
    (t.guarded ≠ 0 → s.launch =
      { s with
        engine.phase := .guarding, engine.quiet := t.guarded,
        engine.guardWait := some { timeout := s.control.params.guardTimeout, policy := s.control.params.policy } }) ∧
    (t.guarded = 0 → s.launch = s.advance) ∧
    (s.engine.pendingOpen ≠ [] → s.advance =
      State.formWave { s with engine.phase := .opening, engine.guardWait := none } false t.waveLimit) ∧
    (s.engine.pendingOpen = [] → s.engine.pendingClose ≠ [] → s.advance =
      State.formWave { s with engine.phase := .closing, engine.guardWait := none } true t.waveLimit) ∧
    (s.engine.pendingOpen = [] → s.engine.pendingClose = [] →
      let ended : State :=
        { s with
          engine.quiet := 0, engine.guardWait := none, engine.lastCompleted := t.number, engine.baseMap := [],
          engine.transition := none, engine.phase := .idle, engine.abortNoted := false }
      (t.kind = .stepped → s.gate.mode = .normal → t.stop = true → s.advance =
        State.raise (State.raise { ended with gate.mode := .halt, gate.reason := .stopMark } .done) .halted) ∧
      (t.kind = .stepped → s.gate.mode = .single → s.advance =
        State.raise (State.raise { ended with gate.mode := .halt, gate.reason := .singleDone } .done) .halted) ∧
      ((t.kind ≠ .stepped ∨ s.gate.mode = .normal ∧ t.stop = false ∨ s.gate.mode = .free ∨ s.gate.mode = .halt) →
        (s.gate.latch = false ∨ s.resolver.context ≠ none ∨ s.gate.mode = .halt → s.advance = ended.raise .done) ∧
        (s.gate.latch = true → s.resolver.context = none → s.gate.mode ≠ .halt →
          let freed : State := State.raise { ended with gate.latch := false } .done
          (s.gate.slot = none → s.advance = freed.raise .trigEmpty) ∧
          ∀ p, s.gate.slot = some p →
            (p.baseNumber ≠ t.number ∨ (∃ x ∈ p.closes, (s.wearOf x.1).health = .retired) →
              s.advance = State.raise { freed with gate.slot := none } .stale) ∧
            (p.baseNumber = t.number → (∀ x ∈ p.closes, (s.wearOf x.1).health ≠ .retired) →
              s.advance = freed.startStepped p))))

/-- A wave is the front of its list, up to W relays, with each relay's confirmation mode and sense timeout and the largest
relay time, every relay WRITING and none read yet. On each chain it touches attempt 1 of a write begins, and the new image gives each wave relay its new state,
each absent position 0, and every other position its written value; other chains keep theirs (R84 to R86, R108). -/
def Obligations.WavesTakeTheFrontOfTheirList : Prop :=
  ∀ (s : State) (close : Bool) (w : Nat), s.Canonical →
    let rs := (if close then s.engine.pendingClose else s.engine.pendingOpen).take w
    let t := s.formWave close w
    t = { s with coil.wave := t.coil.wave, coil.images := t.coil.images, coil.exchanges := t.coil.exchanges } ∧
    (∃ v, t.coil.wave = some v ∧ v.close = close ∧ v.relays.map WaveRelay.relay = rs ∧
      v.time = s.waveTime close rs ∧ v.stage = .writing ∧ v.failed = false ∧
      ∀ x ∈ v.relays, x.mode = (s.classOf x.relay).mode ∧
        x.senseTimeout = (s.classOf x.relay).senseTimeout.toNat ∧ x.status = .writing ∧ x.spent = false) ∧
    ∀ c, c < 8 →
      ((∃ r ∈ rs, r / 128 = c) → t.exchange c = .writing 1 .shifting ∧
        ∀ p, p < 128 → (t.coil.images.get 0 c).getLsbD p =
          ((s.relay (128 * c + p)).present &&
            if 128 * c + p ∈ rs then close else (s.coil.images.get 0 c).getLsbD p)) ∧
      ((∀ r ∈ rs, r / 128 ≠ c) → t.exchange c = s.exchange c ∧ t.coil.images.get 0 c = s.coil.images.get 0 c)

/-- During a guard wait QACK high sends the engine on with the transition as it was. A timeout under PROCEED, or of a
SAFE_OPEN, makes the transition HOT, raises GUARD_BYPASS and sends it on; under ABORT it records a GUARD_TIMEOUT fault
naming no relay and suspends the transition (R105, R106, R123, R138). -/
def Obligations.GuardWaitsEndByQackTimeoutOrPolicy : Prop :=
  ∀ (s : State) (t : Transition) (g : GuardWait), s.ring.reading = none → s.engine.phase = .guarding →
    s.engine.transition = some t → s.engine.guardWait = some g →
    exec .qackHigh s = .next s.advance ∧
    (t.kind = .safeOpen ∨ g.policy = .proceed → exec .guardTimeout s =
      .next (State.advance (State.raise { s with engine.transition := some { t with hot := true } } .guardBypass))) ∧
    (t.kind ≠ .safeOpen → g.policy = .abort → ∃ u, exec .guardTimeout s = .next u ∧
      State.SuspendsTo
        { s with
          engine.fault := faultTaken s.engine.fault
            { kind := .guardTimeout, phase := .guard, transition := t.kind, number := t.number, relay := none,
              chain := none, count := 0 } }
        u .fault .guard)

/-- At the end of a wave every chain is IDLE and the wave is gone. A failed wave suspends the transition with reason FAULT,
or locks the part out when it is a SAFE_OPEN; a wave without failure suspends it ABORTED when an abort was noted, and
otherwise the engine goes on (R92, R112, R129, R130, R139, R140). -/
def Obligations.WaveEndsSuspendLockOutOrGoOn : Prop :=
  ∀ (s : State) (t : Transition) (w : Wave), s.engine.transition = some t →
    let ended : State := { s with coil.wave := none, coil.exchanges := [] }
    let phase : FaultPhase := s.engine.phase.faultPhase
    (w.failed = true → t.kind ≠ .safeOpen → State.SuspendsTo ended (s.endWave w) .fault phase) ∧
    (w.failed = true → t.kind = .safeOpen → State.LocksOutTo ended (s.endWave w)) ∧
    (w.failed = false → s.engine.abortNoted = true → State.SuspendsTo ended (s.endWave w) .aborted phase) ∧
    (w.failed = false → s.engine.abortNoted = false → s.endWave w = ended.advance) ∧
    (s.engine.phase = .opening → phase = .opening) ∧ (s.engine.phase = .closing → phase = .closing)

/-! ### The coil chains -/

/-- The end of a shift begins the echo wait. A mismatched or missing echo of attempt 1 or 2 begins the next attempt. A
matching write echo latches the chain and its relays, and the wave goes on waiting while another touched chain is WRITING;
with none left WRITING its timed wait begins, and a wave time of 0 ends it at once (R85, R86, R88, R89, R109; the moment a
relay is LATCHED: DEDUCED, log 16; the wave time of 0 in one event: DEDUCED, log 14). -/
def Obligations.EchoesLatchOrRetry : Prop :=
  ∀ (s : State) (c : Fin 8) (n : Nat) (echo made : Image), s.ring.reading = none →
    (∀ x ∈ [Exchange.writing n, Exchange.sensing n], s.exchange c = x .shifting →
      ∃ u, exec (.shiftComplete c) s = .next u ∧ s.Moves u c (x .echoWait)) ∧
    (s.exchange c = .writing n .echoWait → n < 3 →
      (∃ u, exec (.noEcho c) s = .next u ∧ s.Moves u c (.writing (n + 1) .shifting)) ∧
      (echo ≠ s.coil.images.get 0 c → ∃ u, exec (.writeEcho c echo) s = .next u ∧
        s.Moves u c (.writing (n + 1) .shifting))) ∧
    (s.exchange c = .sensing n .echoWait → n < 3 →
      (∃ u, exec (.noEcho c) s = .next u ∧ s.Moves u c (.sensing (n + 1) .shifting)) ∧
      (echo ≠ s.coil.images.get 0 c → ∃ u, exec (.senseEcho c echo made) s = .next u ∧
        s.Moves u c (.sensing (n + 1) .shifting))) ∧
    ∀ w, s.coil.wave = some w → s.exchange c = .writing n .echoWait → echo = s.coil.images.get 0 c →
      let latched := w.given (w.having (some c) .writing) .latched
      ((∃ d ∈ w.chains, d ≠ c ∧ ∃ m st, s.exchange d = .writing m st) → ∃ u, exec (.writeEcho c echo) s = .next u ∧
        State.Moves { s with coil.wave := some { w with relays := latched } } u c .latched) ∧
      ((∀ d ∈ w.chains, d ≠ c → ∀ m st, s.exchange d ≠ .writing m st) → c.val ∈ w.chains →
        ∃ u, State.Moves { s with coil.wave := some { w with relays := latched, stage := .timedWait } } u c .latched ∧
          (0 < w.time → exec (.writeEcho c echo) s = .next u) ∧
          (w.time = 0 → exec (.writeEcho c echo) s = exec .timedWaitEnd u))

/-- A third failed attempt fails the chain: its relays still WRITING or SENSING become CHAIN_FAILED and UNKNOWN and stay
pending, and a CHAIN fault naming the chain, the lowest of them and their count goes to the fault record. The wave goes
on while another chain is WRITING; when no other is and one is LATCHED its timed wait begins; when every touched chain has
failed its writes, or no relay is left SENSING, the wave ends at once; a sense period whose deadline has been reached ends
once no other exchange is in flight (R87 to R89, R91, R109, R111, R123 to R125; a wave time of 0 ends the wait in the same
event: DEDUCED, log 14; a deadline of 0 is reached at once: DEDUCED, log 15). -/
def Obligations.ThirdFailuresFailTheChain : Prop :=
  ∀ (s : State) (c : Fin 8) (echo made : Image) (w : Wave) (t : Transition), s.ring.reading = none →
    s.coil.wave = some w → s.engine.transition = some t → Ascending (w.relays.map WaveRelay.relay) → echo ≠ s.coil.images.get 0 c →
    let failing : RelayStatus → Wave := fun st =>
      { w with relays := w.given (w.having (some c) st) .chainFailed, failed := true }
    let stopped := fun (st : RelayStatus) (v : State) =>
      let rs := w.having (some c) st
      v = { s with
        engine.actual := v.engine.actual, coil.exchanges := v.coil.exchanges,
        coil.wave := some (failing st),
        engine.fault := faultTaken s.engine.fault
          { kind := .chain, phase := if w.close then .closing else .opening, transition := t.kind, number := t.number,
            relay := rs.head?, chain := some c, count := rs.length } } ∧
      v.exchange c = .failed ∧ (∀ d, d ≠ c.val → v.exchange d = s.exchange d) ∧
      ∀ r, Table.get .opened v.engine.actual r = if r ∈ rs then .unknown else Table.get .opened s.engine.actual r
    (s.exchange c = .writing 3 .echoWait → ∀ row ∈ [Instr.writeEcho c echo, .noEcho c], ∃ v, stopped .writing v ∧
      ((∃ d ∈ w.chains, d ≠ c ∧ ∃ m st, s.exchange d = .writing m st) → exec row s = .next v) ∧
      ((∀ d ∈ w.chains, d ≠ c → ∀ m st, s.exchange d ≠ .writing m st) →
        (∃ d ∈ w.chains, d ≠ c ∧ s.exchange d = .latched) →
        let waits : State := { v with coil.wave := some { failing .writing with stage := .timedWait } }
        (0 < w.time → exec row s = .next waits) ∧ (w.time = 0 → exec row s = exec .timedWaitEnd waits)) ∧
      ((∀ d ∈ w.chains, d ≠ c → s.exchange d = .failed) →
        exec row s = .next (v.endWave (failing .writing)))) ∧
    (s.exchange c = .sensing 3 .echoWait → ∀ row ∈ [Instr.senseEcho c echo made, .noEcho c], ∃ v, stopped .sensing v ∧
      ∀ d reached, w.stage = .sensing d reached →
        ((∀ x ∈ w.relays, x.status = .sensing → x.relay / 128 = c) →
          exec row s = .next (v.endWave (failing .sensing))) ∧
        ∀ m, LargestTimeout (failing .sensing).relays m →
          let goesOn := fun p : Bool =>
            { v with coil.wave := some { failing .sensing with stage := .sensing m p } }
          (reached = false → 0 < m → exec row s = .next (goesOn false)) ∧
          (reached = true ∨ m = 0 →
            ((∃ k ∈ w.chains, k ≠ c ∧ ∃ a st, s.exchange k = .sensing a st) → exec row s = .next (goesOn true)) ∧
            ((∀ k ∈ w.chains, k ≠ c → ∀ a st, s.exchange k ≠ .sensing a st) →
              exec row s = exec .senseDeadline (goesOn true))))

/-- At the end of the timed wait every latched TIMED relay is confirmed and every latched SENSED relay becomes SENSING;
each latched chain with a SENSING relay begins a sense exchange and the others are DONE, under the deadline of the largest
timeout. With no relay SENSING the wave ends. A wave of TIMED relays that ends both lists without an abort completes its
transition. Each confirmation is taken whole, with its wear increment, its notices and its causes, in some order (R90, R92,
R109, R110, R113, R163; the order is FREE: DESIGN CHOICE, log 6; a deadline of 0 is reached at once: DEDUCED, log 15). -/
def Obligations.TimedWaitsConfirmTimedRelays : Prop :=
  ∀ (s : State) (w : Wave) (t : Transition), s.ring.reading = none → s.coil.wave = some w →
    w.stage = .timedWait → s.engine.transition = some t → Ascending (w.relays.map WaveRelay.relay) →
    (∀ x ∈ w.relays, x.relay < 1024 ∧ (x.status = .latched ↔ s.exchange (x.relay / 128) = .latched) ∧
      (x.status = .latched ∨ x.status = .chainFailed)) →
    let timed := (w.relays.filter (fun x => decide (x.status = .latched ∧ x.mode = .timed))).map WaveRelay.relay
    let marked : Wave := { w with relays := w.relays.map (fun x =>
      if x.status = .latched then { x with status := if x.mode = .timed then .confirmed else .sensing } else x) }
    (∀ m, LargestTimeout marked.relays m → ∃ u, exec .timedWaitEnd s = .next u ∧
      State.ConfirmsTo { s with coil := u.coil } u w.close timed ∧
      u.coil = { s.coil with
        wave := some { marked with stage := .sensing m (decide (m = 0)) }, exchanges := u.coil.exchanges } ∧
      ∀ c, u.exchange c = if c ∈ w.chains ∧ s.exchange c = .latched then
        (if ∃ x ∈ marked.relays, x.relay / 128 = c ∧ x.status = .sensing then .sensing 1 .shifting else .done)
        else s.exchange c) ∧
    ((∀ x ∈ marked.relays, x.status ≠ .sensing) → ∃ v, s.ConfirmsTo v w.close timed ∧
      exec .timedWaitEnd s = .next (v.endWave marked)) ∧
    ((∀ x ∈ w.relays, x.status = .latched ∧ x.mode = .timed) → w.failed = false → s.engine.abortNoted = false →
      s.engine.pendingOpen = (if w.close then [] else w.relays.map WaveRelay.relay) →
      s.engine.pendingClose = (if w.close then w.relays.map WaveRelay.relay else []) →
      t.kind ≠ .stepped ∨ s.gate.mode = .free → s.gate.latch = false →
      ∃ u v, exec .timedWaitEnd s = .next u ∧
        State.ConfirmsTo { s with coil.wave := none, coil.exchanges := [] } v w.close timed ∧
        u = State.raise
          { v with
            engine.quiet := 0, engine.guardWait := none, engine.lastCompleted := t.number, engine.baseMap := [],
            engine.transition := none, engine.phase := .idle } .done ∧
        u.engine.pendingOpen = [] ∧ u.engine.pendingClose = [])

/-- A matching sense echo confirms the SENSING relays of its chain whose contacts are as the wave wants them, each taken
whole, with its wear increment, its notices and its causes, in some order (FREE: DESIGN CHOICE, log 6); a SENSING
relay of timeout 0 that is not confirmed by its first read is not read again, and fails at the end of the period. A chain
with SENSING relays left enters SENSE_INTERVAL, any other is DONE; the deadline becomes the largest timeout left, and with
no SENSING relay left the wave ends. When the deadline has been reached, the period goes on while another exchange is in
flight and otherwise ends as SENSE_DEADLINE ends it. The end of an interval begins the next sense exchange, unless the
deadline has been reached (R89 to R92, R110, R163). That a relay of timeout 0 stays SENSING after its one read, and that a deadline of
0 is reached at once, are the model's readings of R90 and R91 (DEDUCED, log 15). -/
def Obligations.SenseEchoesConfirmMatchingRelays : Prop :=
  (∀ (s : State) (c : Fin 8) (n d : Nat) (reached : Bool) (echo made : Image) (w : Wave), s.ring.reading = none →
    s.coil.wave = some w → w.stage = .sensing d reached → s.exchange c = .sensing n .echoWait →
    echo = s.coil.images.get 0 c → Ascending (w.relays.map WaveRelay.relay) →
    let relays := w.sensed c made
    let matching := (w.relays.filter (fun x => decide (x.relay / 128 = c.val ∧ x.status = .sensing ∧ x.spent = false ∧
      made.getLsbD (x.relay % 128) = w.close))).map WaveRelay.relay
    ∃ v, State.ConfirmsTo { s with coil := v.coil } v w.close matching ∧
      State.Moves { s with coil.wave := some { w with relays := relays } } { s with coil := v.coil } c
        (if ∃ x ∈ relays, x.relay / 128 = c.val ∧ x.status = .sensing then .senseInterval else .done) ∧
      ((∀ x ∈ relays, x.status ≠ .sensing) →
        exec (.senseEcho c echo made) s = .next (v.endWave { w with relays := relays })) ∧
      ∀ m, LargestTimeout relays m →
        let goesOn := fun b : Bool => { v with coil.wave := some { w with relays := relays, stage := .sensing m b } }
        (reached = false → 0 < m → exec (.senseEcho c echo made) s = .next (goesOn false)) ∧
        (reached = true ∨ m = 0 →
          ((∃ k ∈ w.chains, k ≠ c ∧ ∃ a st, s.exchange k = .sensing a st) →
            exec (.senseEcho c echo made) s = .next (goesOn true)) ∧
          ((∀ k ∈ w.chains, k ≠ c → ∀ a st, s.exchange k ≠ .sensing a st) →
            exec (.senseEcho c echo made) s = exec .senseDeadline (goesOn true)))) ∧
  ∀ (s : State) (c : Fin 8) (w : Wave) (d : Nat), s.ring.reading = none → s.coil.wave = some w →
    s.exchange c = .senseInterval →
    (w.stage = .sensing d false → ∃ u, exec (.senseIntervalEnd c) s = .next u ∧ s.Moves u c (.sensing 1 .shifting)) ∧
    (w.stage = .sensing d true → exec (.senseIntervalEnd c) s = .next s)

/-- The deadline of a sense period is recorded while a sense exchange is in flight. With none in flight every relay still
SENSING becomes CONTACT_FAILED and UNKNOWN and stays pending, one CONTACT fault naming the lowest of them and their count
goes to the fault record, GOOD relays among them become SUSPECT and SUSPECT ones RETIRED with no wear count changed, a
RETIRE notice with its present count is handed on for each newly RETIRED one in ascending index, and the wave ends (R91,
R111, R123 to R126, R164, R165). -/
def Obligations.SenseDeadlinesFailUnconfirmedRelays : Prop :=
  ∀ (s : State) (w : Wave) (t : Transition) (d m : Nat) (reached : Bool), s.ring.reading = none →
    s.coil.wave = some w → w.stage = .sensing d reached → s.engine.transition = some t → Ascending (w.relays.map WaveRelay.relay) →
    LargestTimeout w.relays m →
    let rs := w.having none .sensing
    let failing : Wave := { w with relays := w.given rs .contactFailed, failed := true, stage := .sensing m true }
    let handed : List Notice := (rs.filter (fun r => decide ((s.wearOf r).health = .suspect))).map
      (fun r => { relay := r, kind := .retire, count := (s.wearOf r).count })
    ((∃ c ∈ w.chains, ∃ n st, s.exchange c = .sensing n st) → exec .senseDeadline s =
      .next { s with coil.wave := some { w with stage := .sensing m true } }) ∧
    ((∀ c ∈ w.chains, ∀ n st, s.exchange c ≠ .sensing n st) → ∃ v : State,
      exec .senseDeadline s = .next (v.endWave failing) ∧
      v = { s with
        engine.actual := v.engine.actual, wear := v.wear, alerts := v.alerts, coil.wave := v.coil.wave,
        engine.fault := faultTaken s.engine.fault
          { kind := .contact, phase := if w.close then .closing else .opening, transition := t.kind,
            number := t.number, relay := rs.head?, chain := none, count := rs.length } } ∧
      (∀ r, Table.get .opened v.engine.actual r =
        if r ∈ rs then .unknown else Table.get .opened s.engine.actual r) ∧
      (∀ r, (v.wearOf r).count = (s.wearOf r).count ∧ (v.wearOf r).health =
        if r ∈ rs then (if (s.wearOf r).health = .good then .suspect else .retired) else (s.wearOf r).health) ∧
      (s.wear.notices.length ≤ 16 →
        v.wear.notices = (s.wear.notices ++ handed).take 16 ∧
        (v.isRaised .wear = true ↔ s.isRaised .wear = true ∨ handed ≠ [] ∧ s.wear.notices.length < 16) ∧
        (v.isRaised .noticeFull = true ↔
          s.isRaised .noticeFull = true ∨ 16 < s.wear.notices.length + handed.length)) ∧
      ∀ c, c ≠ .wear → c ≠ .noticeFull → v.isRaised c = s.isRaised c)

/-- An event whose cause is not in effect changes nothing: an echo or its absence outside an echo wait of its kind, a late
echo, the end of a shift, interval, timed wait, deadline or guard wait that is not running, QACK outside the guard wait,
the end of a resolution or of a reset with none in progress, and the expiry of a stopped link timer (R86, R105; for the
other events DESIGN CHOICE, logs 5 and 23). With a READ being filled: ReadsFillWhileEventsFall. -/
def Obligations.EventsWithoutACauseChangeNothing : Prop :=
  ∀ (s : State) (c : Fin 8) (echo made : Image) (straps : BitVec 4), s.ring.reading = none →
    exec (.staleEcho c echo) s = .next s ∧
    ((∀ n, s.exchange c ≠ .writing n .echoWait) → exec (.writeEcho c echo) s = .next s) ∧
    ((∀ n, s.exchange c ≠ .sensing n .echoWait) → exec (.senseEcho c echo made) s = .next s) ∧
    ((∀ n, s.exchange c ≠ .writing n .echoWait ∧ s.exchange c ≠ .sensing n .echoWait) →
      exec (.noEcho c) s = .next s) ∧
    ((∀ n, s.exchange c ≠ .writing n .shifting ∧ s.exchange c ≠ .sensing n .shifting) →
      exec (.shiftComplete c) s = .next s) ∧
    (s.exchange c ≠ .senseInterval → exec (.senseIntervalEnd c) s = .next s) ∧
    ((∀ w, s.coil.wave = some w → w.stage ≠ .timedWait) → exec .timedWaitEnd s = .next s) ∧
    ((∀ w, s.coil.wave = some w → ∀ d b, w.stage ≠ .sensing d b) → exec .senseDeadline s = .next s) ∧
    (s.engine.phase ≠ .guarding → exec .qackHigh s = .next s ∧ exec .guardTimeout s = .next s) ∧
    (s.resolver.context = none → exec .resolutionComplete s = .next s) ∧
    (s.control.resetting = none → exec (.resetEnd straps) s = .next s) ∧
    (s.control.linkTimer = false → exec .linkLoss s = .next s)

/-! ### Recovery -/

/-- ABORT suspends a guarding transition at once, is noted while waves run, and is refused with nothing in flight. RESUME
carries a suspended transition on from its first phase, cold, and is refused otherwise (R127 to R130, R133, R134). -/
def Obligations.AbortStopsAndResumeContinues : Prop :=
  ∀ (s : State) (e : Envelope) (a : ControlArg) (b : Bool), s.ActsOn e b → s.control.mode ≠ .lockedOut →
    let aborted := fun t x => exec (.abort e a) s = .next (State.replies t kindControl (controlArgWord a 4) e b x)
    let resumed := fun t x => exec (.resume e a) s = .next (State.replies t kindControl (controlArgWord a 5) e b x)
    (s.engine.phase = .guarding → ∃ u, s.SuspendsTo u .aborted .guard ∧ aborted u .accepted) ∧
    (s.engine.phase = .opening ∨ s.engine.phase = .closing →
      aborted { s with engine.abortNoted := true } .accepted) ∧
    (s.engine.phase = .idle ∨ s.engine.phase = .suspended → aborted s (.refused .nothingInFlight)) ∧
    (s.engine.phase ≠ .suspended → resumed s (.refused .notSuspended)) ∧
    ∀ t, s.engine.phase = .suspended → s.engine.transition = some t →
      resumed (State.launch
        { s with
          engine.suspension := .none, engine.suspendedPhase := none,
          engine.transition := some { t with hot := false } }) .accepted

/-- ROLLBACK of a suspended STEPPED transition starts a transition of the next number towards the base owner map: it opens
every relay CLOSED or UNKNOWN and not held there, and closes every relay OPEN or UNKNOWN and held there, with the
suspended W and guard set. A resolution in flight is CANCELLED. With nothing to guard, open or close the transition
completes in its own event, so that the engine is IDLE again when a latched trigger is re-examined (DEDUCED, log 31).
ROLLBACK is refused when nothing is suspended, and for another kind of transition (R28, R63, R113, R133, R135, R136, R149,
R150). -/
def Obligations.RollbackReturnsToTheBase : Prop :=
  ∀ (s : State) (e : Envelope) (a : ControlArg) (b : Bool), s.Canonical → s.ActsOn e b → s.control.mode ≠ .lockedOut →
    let answer := fun t x => exec (.rollback e a) s = .next (State.replies t kindControl (controlArgWord a 6) e b x)
    (s.engine.phase ≠ .suspended → answer s (.refused .notSuspended)) ∧
    ∀ t, s.engine.phase = .suspended → s.engine.transition = some t →
      (t.kind ≠ .stepped → answer s (.refused .badArgument)) ∧
      (t.kind = .stepped → ∃ opens closes,
        (∀ r, r ∈ opens ↔ Table.get .opened s.engine.actual r ≠ .opened ∧ ownerOf s.engine.baseMap r = none) ∧
        (∀ r, r ∈ closes ↔ Table.get .opened s.engine.actual r ≠ .closed ∧ ownerOf s.engine.baseMap r ≠ none) ∧
        Ascending opens ∧ Ascending closes ∧
        let started : State :=
          { s with
            engine.suspension := .none, engine.suspendedPhase := none, engine.current := s.engine.current + 1,
            engine.transition := some
              { kind := .rollback, number := s.engine.current + 1, waveLimit := t.waveLimit, guarded := t.guarded,
                stop := false, hot := false },
            engine.holdings := s.engine.baseMap, engine.pendingOpen := opens, engine.pendingClose := closes }
        (s.resolver.context = none → answer started.launch .accepted) ∧
        ∀ ctx, s.resolver.context = some ctx →
          ((t.guarded ≠ 0 ∨ opens ≠ [] ∨ closes ≠ []) → answer (State.raise
            { started.launch with resolver := { context := none, result := cancelledRecord ctx } } .resolveFail)
            .accepted) ∧
          (t.guarded = 0 → opens = [] → closes = [] → ∃ u, answer (State.raise u .resolveFail) .accepted ∧
            State.ReexaminesTo (State.raise
              { started with
                engine.quiet := 0, engine.guardWait := none, engine.lastCompleted := s.engine.current + 1,
                engine.baseMap := [], engine.transition := none, engine.phase := .idle, engine.abortNoted := false,
                resolver := { context := none, result := cancelledRecord ctx } } .done) u))

/-- SAFE_OPEN, taken in RUN from IDLE or SUSPENDED, starts a transition of the next number that opens every relay CLOSED or
UNKNOWN, with the wave limit of CONFIG and every guarded FORCE port, and empties the holding table. A resolution in flight
is CANCELLED. With nothing to guard or open the transition completes in its own event, so that the engine is IDLE again when
a latched trigger is re-examined (DEDUCED, log 31). SAFE_OPEN is refused in CONFIGURE and while a transition is in flight
(R9, R28, R63, R113, R133, R137, R149, R150). -/
def Obligations.SafeOpenOpensEverything : Prop :=
  ∀ (s : State) (e : Envelope) (a : ControlArg) (b : Bool), s.Canonical → s.ActsOn e b →
    let answer := fun t x => exec (.safeOpen e a) s = .next (State.replies t kindControl (controlArgWord a 7) e b x)
    (s.control.mode = .configure → answer s (.refused .wrongMode)) ∧
    (s.control.mode = .run → s.engine.phase = .guarding ∨ s.engine.phase = .opening ∨ s.engine.phase = .closing →
      answer s (.busy .engine)) ∧
    (s.control.mode = .run → s.engine.phase = .idle ∨ s.engine.phase = .suspended → ∃ opens guarded,
      (∀ r, r ∈ opens ↔ Table.get .opened s.engine.actual r ≠ .opened) ∧ Ascending opens ∧
      (∀ k, k < 24 → (BitVec.getLsbD guarded k = true ↔ (s.port k).role = .force ∧ (s.port k).guarded = true)) ∧
      let started : State :=
        { s with
          engine.suspension := .none, engine.suspendedPhase := none, engine.current := s.engine.current + 1,
          engine.transition := some
            { kind := .safeOpen, number := s.engine.current + 1, waveLimit := s.control.params.waveLimit,
              guarded := guarded, stop := false, hot := false },
          engine.holdings := [], engine.pendingOpen := opens, engine.pendingClose := [] }
      (s.resolver.context = none → answer started.launch .accepted) ∧
      ∀ ctx, s.resolver.context = some ctx →
        ((guarded ≠ 0 ∨ opens ≠ []) → answer (State.raise
          { started.launch with resolver := { context := none, result := cancelledRecord ctx } } .resolveFail)
          .accepted) ∧
        (guarded = 0 → opens = [] → ∃ u, answer (State.raise u .resolveFail) .accepted ∧
          State.ReexaminesTo (State.raise
            { started with
              engine.quiet := 0, engine.guardWait := none, engine.lastCompleted := s.engine.current + 1,
              engine.baseMap := [], engine.transition := none, engine.phase := .idle, engine.abortNoted := false,
              resolver := { context := none, result := cancelledRecord ctx } } .done) u))

/-! ### Resets -/

/-- Power-on and RSTN low begin a hard reset, a SOFT_RESET frame once it has been sent on and 1 ms without lock a soft one.
Each empties the board and leaves CONFIGURE with no cause pending; a hard reset also sets the tables, the route store, the
wear records, the notices and CONFIG, which a soft reset keeps. Link loss during a reset is recorded (R18, R35, R168,
R193, R194). The record of an RSTN reset during power-on is FREE (log 7). That POWER_ON
restarts any reset (log 10), and that RSTN keeps a recorded link loss (log 8), are the model's readings. -/
def Obligations.ResetsEmptyTheBoard : Prop :=
  ∀ s : State, s.ring.reading = none →
    (∃ u, exec .powerOn s = .next u ∧ u.EmptyBoard ∧ u.HardValues ∧ u.ring = { s.ring with cursor := none } ∧
      u.control =
        { s.control with mode := .configure, params := u.control.params,
                         resetting := some { source := .powerOn, linkLost := false } }) ∧
    ((∀ r, s.control.resetting = some r → r.source ≠ .powerOn) → ∃ u, exec .rstnLow s = .next u ∧
      u.EmptyBoard ∧ u.HardValues ∧ u.ring = { s.ring with cursor := none } ∧
      ∃ lost, u.control =
        { s.control with mode := .configure, params := u.control.params, rstnLow := true,
                         resetting := some { source := .rstn, linkLost := lost } } ∧
        (lost = true ↔ ∃ r, s.control.resetting = some r ∧ r.linkLost = true)) ∧
    (∀ (e : Envelope) (a : ControlArg) (b : Bool), s.ActsOn e b → ∃ u, exec (.softReset e a) s = .next u ∧
      u.EmptyBoard ∧ u.topology = s.topology ∧ u.store = s.store ∧ u.wear = s.wear ∧
      u.control =
        { s.control with mode := .configure, resetting := some { source := .softFrame, linkLost := false } } ∧
      u.ring = { (s.replies kindControl (controlArgWord a 10) e b .done).ring with cursor := none }) ∧
    (s.control.linkTimer = true →
      (s.control.resetting = none → ∃ u, exec .linkLoss s = .next u ∧ u.EmptyBoard ∧ u.topology = s.topology ∧
        u.store = s.store ∧ u.wear = s.wear ∧ u.ring = { s.ring with cursor := none } ∧
        u.control =
          { s.control with mode := .configure, linkTimer := false,
                           resetting := some { source := .linkLoss, linkLost := false } }) ∧
      ∀ r, s.control.resetting = some r → exec .linkLoss s =
        .next { s with control.linkTimer := false, control.resetting := some { r with linkLost := true } })

/-- A reset ends once RSTN is high and, where link loss began it or was recorded in it, lock has returned: COILEN rises, a
hard reset samples the straps into the ring address and the arbitration number, the reset record takes its flags, RESET is
raised, and the link timer starts anew if lock is still lost. RSTN and lock move with their lines (R172, R188, R193,
R194; log 9). -/
def Obligations.ResetsEndWithTheirRecord : Prop :=
  (∀ (s : State) (r : ResetRun) (straps : BitVec 4), s.ring.reading = none → s.control.resetting = some r →
    let waits := s.control.rstnLow = true ∨ s.control.lockLost = true ∧ (r.source = .linkLoss ∨ r.linkLost = true)
    let hard := r.source = .powerOn ∨ r.source = .rstn
    let old := s.control.resetRecord
    (waits → exec (.resetEnd straps) s = .next s) ∧
    (¬ waits → ∃ u, exec (.resetEnd straps) s = .next u ∧
      u = { s with
        ring.address := u.ring.address, coil.coilEnable := true, alerts := u.alerts,
        control :=
          { s.control with
            params := { s.control.params with arbitration := u.control.params.arbitration },
            resetting := none, linkTimer := s.control.lockLost, resetRecord := u.control.resetRecord } } ∧
      (hard → u.ring.address = straps ∧ u.control.params.arbitration = straps ∧
        u.control.resetRecord =
          { powerOn := decide (r.source = .powerOn), rstn := decide (r.source = .rstn), softFrame := false,
            linkLoss := r.linkLost }) ∧
      (¬ hard → u.ring.address = s.ring.address ∧ u.control.params.arbitration = s.control.params.arbitration ∧
        u.control.resetRecord =
          { old with
            softFrame := old.softFrame || decide (r.source = .softFrame),
            linkLoss := old.linkLoss || decide (r.source = .linkLoss) || r.linkLost }) ∧
      ∀ c, u.isRaised c = (s.isRaised c || decide (c = .reset)))) ∧
  ∀ s : State, s.ring.reading = none →
    exec .rstnHigh s = .next { s with control.rstnLow := false } ∧
    exec .symbolLockReturn s = .next { s with control.lockLost := false, control.linkTimer := false } ∧
    (s.control.lockLost = false → exec .symbolLockLost s =
      .next { s with control.lockLost := true, control.linkTimer := true }) ∧
    (s.control.lockLost = true → exec .symbolLockLost s = .next s)

/-! ### Invariants -/

/-- The machine after reset is what a power-on reset with straps 0 leaves of any state, its queue, its trace and its
count of free values apart, and it meets every invariant stated here (R194; the straps and the line levels are the model's
choice: DESIGN CHOICE, logs 1 to 3). -/
def Obligations.ResetStateMeetsEveryInvariant : Prop :=
  (State.reset.Canonical ∧ State.reset.Agrees ∧ State.reset.PendingAgrees ∧ State.reset.HoldsPresent ∧
    State.reset.InRange ∧ State.reset.BoardAgrees ∧ State.reset.WaveAgrees) ∧
  ∀ s u v : State, s.ring.reading = none → s.control.rstnLow = false → s.control.lockLost = false →
    exec .powerOn s = .next u → exec (.resetEnd 0) u = .next v →
    v = { State.reset with pending := s.pending, free := s.free, ring.sent := s.ring.sent }

/-- Every step keeps every table in its canonical form (log 22), and keeps in its range every stored parameter, every wave
limit that a resolution, a plan or a transition has taken, and every index that a table, a pending list, a wave, a plan, a
resolution or a notice names: relays lie below 1024 (R19, R67, R99, R165, R179, R188). -/
def Obligations.StepsKeepTablesCanonicalAndInRange : Prop :=
  ∀ s t : State, step s = .next t → (s.Canonical → t.Canonical) ∧ (s.InRange → t.InRange)

/-- Every step keeps the engine, the coil chains, the gate, the mode, the coil supply and the alerts in agreement: the QG
lines are asserted exactly for the transition in flight, a close phase has nothing left to open, nothing is held, staged
or latched outside RUN, and LOCKED_OUT holds LOCKOUT pending (R29, R93, R96, R107, R112, R130, R144, R157, R191). -/
def Obligations.StepsKeepTheBlocksInAgreement : Prop :=
  ∀ s t : State, s.Agrees → step s = .next t → t.Agrees

/-- Every step keeps each UNKNOWN relay pending, each pending list ascending and apart from the other, and each wave relay
that is not confirmed on its list; no step gives an absent relay to an owner; and every step keeps the wave in agreement
with its chains: a relay is WRITING or LATCHED exactly while its chain is, and SENSING only in the sense period of a chain
that senses, each stage of the wave has a relay that it waits for, the deadline is the largest timeout among the SENSING
relays, and a chain the wave does not touch is IDLE (R4, R27, R84, R86, R88, R90 to R92, R100, R131; a relay is LATCHED with
its chain: DEDUCED, log 16). -/
def Obligations.StepsKeepUnknownRelaysPendingAndHeldRelaysPresent : Prop :=
  ∀ s t : State, s.Canonical → s.Agrees → step s = .next t →
    (s.PendingAgrees → t.PendingAgrees) ∧ (s.HoldsPresent → t.HoldsPresent) ∧
      (s.PendingAgrees → s.InRange → s.WaveAgrees → t.WaveAgrees)

/-- Every step keeps what the engine knows in agreement with the holding table: a relay on no pending list is CLOSED if
held and OPEN otherwise, so that with the engine IDLE the actual state is the holding table's. A relay leaves OPEN only in
a close phase, with nothing left to open, and only if it is to be closed and held in the target: while a STEPPED transition
has relays to open, those CLOSED or UNKNOWN are in its base closed set, and after that they are in its target (R28, R38,
R98 to R102, R112, R114). The current number is taken not to be about to wrap, where a plan staged 2^32 transitions before
would count as current. -/
def Obligations.StepsKeepTheBoardAsHeld : Prop :=
  (∀ s t : State, s.Canonical → s.Agrees → s.PendingAgrees → s.engine.current ≠ 0xFFFFFFFF → s.BoardAgrees →
    step s = .next t →
    t.BoardAgrees ∧
    ∀ r, Table.get .opened s.engine.actual r = .opened → Table.get .opened t.engine.actual r ≠ .opened →
      s.engine.phase = .closing ∧ s.engine.pendingOpen = [] ∧ r ∈ s.engine.pendingClose ∧
        ownerOf s.engine.holdings r ≠ none) ∧
  ∀ s : State, s.Agrees → s.BoardAgrees →
    (s.engine.phase = .idle → ∀ r, Table.get .opened s.engine.actual r =
      if ownerOf s.engine.holdings r = none then .opened else .closed) ∧
    (s.engine.pendingOpen = [] → ∀ r, Table.get .opened s.engine.actual r ≠ .opened → ownerOf s.engine.holdings r ≠ none)
end

