-- ==== Sys2Proof/Laws/State.lean ====
section
/-! SUPPORT. What each update of the state leaves alone, block by block. -/

namespace Sys2Proof.Laws

open Sys2Proof.Machine

/-! A cause raised. -/

@[simp] theorem raise_control (s : State) (c : Cause) : (s.raise c).control = s.control := rfl
@[simp] theorem raise_ring (s : State) (c : Cause) : (s.raise c).ring = s.ring := rfl
@[simp] theorem raise_topology (s : State) (c : Cause) : (s.raise c).topology = s.topology := rfl
@[simp] theorem raise_store (s : State) (c : Cause) : (s.raise c).store = s.store := rfl
@[simp] theorem raise_resolver (s : State) (c : Cause) : (s.raise c).resolver = s.resolver := rfl
@[simp] theorem raise_gate (s : State) (c : Cause) : (s.raise c).gate = s.gate := rfl
@[simp] theorem raise_engine (s : State) (c : Cause) : (s.raise c).engine = s.engine := rfl
@[simp] theorem raise_coil (s : State) (c : Cause) : (s.raise c).coil = s.coil := rfl
@[simp] theorem raise_wear (s : State) (c : Cause) : (s.raise c).wear = s.wear := rfl
@[simp] theorem raise_pending (s : State) (c : Cause) : (s.raise c).pending = s.pending := rfl
@[simp] theorem raise_free (s : State) (c : Cause) : (s.raise c).free = s.free := rfl

/-! A frame sent. -/

@[simp] theorem send_control (s : State) (ws : List Word) : (s.send ws).control = s.control := rfl
@[simp] theorem send_topology (s : State) (ws : List Word) : (s.send ws).topology = s.topology := rfl
@[simp] theorem send_store (s : State) (ws : List Word) : (s.send ws).store = s.store := rfl
@[simp] theorem send_resolver (s : State) (ws : List Word) : (s.send ws).resolver = s.resolver := rfl
@[simp] theorem send_gate (s : State) (ws : List Word) : (s.send ws).gate = s.gate := rfl
@[simp] theorem send_engine (s : State) (ws : List Word) : (s.send ws).engine = s.engine := rfl
@[simp] theorem send_coil (s : State) (ws : List Word) : (s.send ws).coil = s.coil := rfl
@[simp] theorem send_wear (s : State) (ws : List Word) : (s.send ws).wear = s.wear := rfl
@[simp] theorem send_alerts (s : State) (ws : List Word) : (s.send ws).alerts = s.alerts := rfl
@[simp] theorem send_pending (s : State) (ws : List Word) : (s.send ws).pending = s.pending := rfl
@[simp] theorem send_free (s : State) (ws : List Word) : (s.send ws).free = s.free := rfl

/-! A wear record replaced. -/

@[simp] theorem setWear_control (s : State) (r : Nat) (w : WearRecord) : (s.setWear r w).control = s.control := rfl
@[simp] theorem setWear_ring (s : State) (r : Nat) (w : WearRecord) : (s.setWear r w).ring = s.ring := rfl
@[simp] theorem setWear_topology (s : State) (r : Nat) (w : WearRecord) : (s.setWear r w).topology = s.topology := rfl
@[simp] theorem setWear_store (s : State) (r : Nat) (w : WearRecord) : (s.setWear r w).store = s.store := rfl
@[simp] theorem setWear_resolver (s : State) (r : Nat) (w : WearRecord) : (s.setWear r w).resolver = s.resolver := rfl
@[simp] theorem setWear_gate (s : State) (r : Nat) (w : WearRecord) : (s.setWear r w).gate = s.gate := rfl
@[simp] theorem setWear_engine (s : State) (r : Nat) (w : WearRecord) : (s.setWear r w).engine = s.engine := rfl
@[simp] theorem setWear_coil (s : State) (r : Nat) (w : WearRecord) : (s.setWear r w).coil = s.coil := rfl
@[simp] theorem setWear_alerts (s : State) (r : Nat) (w : WearRecord) : (s.setWear r w).alerts = s.alerts := rfl
@[simp] theorem setWear_pending (s : State) (r : Nat) (w : WearRecord) : (s.setWear r w).pending = s.pending := rfl
@[simp] theorem setWear_free (s : State) (r : Nat) (w : WearRecord) : (s.setWear r w).free = s.free := rfl

/-! An exchange state replaced. -/

@[simp] theorem setExchange_control (s : State) (c : Nat) (x : Exchange) : (s.setExchange c x).control = s.control := rfl
@[simp] theorem setExchange_ring (s : State) (c : Nat) (x : Exchange) : (s.setExchange c x).ring = s.ring := rfl
@[simp] theorem setExchange_topology (s : State) (c : Nat) (x : Exchange) : (s.setExchange c x).topology = s.topology := rfl
@[simp] theorem setExchange_store (s : State) (c : Nat) (x : Exchange) : (s.setExchange c x).store = s.store := rfl
@[simp] theorem setExchange_resolver (s : State) (c : Nat) (x : Exchange) : (s.setExchange c x).resolver = s.resolver := rfl
@[simp] theorem setExchange_gate (s : State) (c : Nat) (x : Exchange) : (s.setExchange c x).gate = s.gate := rfl
@[simp] theorem setExchange_engine (s : State) (c : Nat) (x : Exchange) : (s.setExchange c x).engine = s.engine := rfl
@[simp] theorem setExchange_wear (s : State) (c : Nat) (x : Exchange) : (s.setExchange c x).wear = s.wear := rfl
@[simp] theorem setExchange_alerts (s : State) (c : Nat) (x : Exchange) : (s.setExchange c x).alerts = s.alerts := rfl
@[simp] theorem setExchange_pending (s : State) (c : Nat) (x : Exchange) : (s.setExchange c x).pending = s.pending := rfl
@[simp] theorem setExchange_free (s : State) (c : Nat) (x : Exchange) : (s.setExchange c x).free = s.free := rfl

/-! Relays recorded UNKNOWN. -/

@[simp] theorem markUnknown_control (s : State) (rs : List Nat) : (s.markUnknown rs).control = s.control := rfl
@[simp] theorem markUnknown_ring (s : State) (rs : List Nat) : (s.markUnknown rs).ring = s.ring := rfl
@[simp] theorem markUnknown_topology (s : State) (rs : List Nat) : (s.markUnknown rs).topology = s.topology := rfl
@[simp] theorem markUnknown_store (s : State) (rs : List Nat) : (s.markUnknown rs).store = s.store := rfl
@[simp] theorem markUnknown_resolver (s : State) (rs : List Nat) : (s.markUnknown rs).resolver = s.resolver := rfl
@[simp] theorem markUnknown_gate (s : State) (rs : List Nat) : (s.markUnknown rs).gate = s.gate := rfl
@[simp] theorem markUnknown_coil (s : State) (rs : List Nat) : (s.markUnknown rs).coil = s.coil := rfl
@[simp] theorem markUnknown_wear (s : State) (rs : List Nat) : (s.markUnknown rs).wear = s.wear := rfl
@[simp] theorem markUnknown_alerts (s : State) (rs : List Nat) : (s.markUnknown rs).alerts = s.alerts := rfl
@[simp] theorem markUnknown_pending (s : State) (rs : List Nat) : (s.markUnknown rs).pending = s.pending := rfl
@[simp] theorem markUnknown_free (s : State) (rs : List Nat) : (s.markUnknown rs).free = s.free := rfl

/-! A plan staged. -/

@[simp] theorem stagePlan_control (s : State) (p : Plan) : (s.stagePlan p).control = s.control := rfl
@[simp] theorem stagePlan_ring (s : State) (p : Plan) : (s.stagePlan p).ring = s.ring := rfl
@[simp] theorem stagePlan_topology (s : State) (p : Plan) : (s.stagePlan p).topology = s.topology := rfl
@[simp] theorem stagePlan_store (s : State) (p : Plan) : (s.stagePlan p).store = s.store := rfl
@[simp] theorem stagePlan_resolver (s : State) (p : Plan) : (s.stagePlan p).resolver = s.resolver := rfl
@[simp] theorem stagePlan_engine (s : State) (p : Plan) : (s.stagePlan p).engine = s.engine := rfl
@[simp] theorem stagePlan_coil (s : State) (p : Plan) : (s.stagePlan p).coil = s.coil := rfl
@[simp] theorem stagePlan_wear (s : State) (p : Plan) : (s.stagePlan p).wear = s.wear := rfl
@[simp] theorem stagePlan_alerts (s : State) (p : Plan) : (s.stagePlan p).alerts = s.alerts := rfl
@[simp] theorem stagePlan_pending (s : State) (p : Plan) : (s.stagePlan p).pending = s.pending := rfl
@[simp] theorem stagePlan_free (s : State) (p : Plan) : (s.stagePlan p).free = s.free := rfl

/-! The parts of a changed block that an update keeps, and the part it changes. -/

@[simp] theorem raise_pending_causes (s : State) (c : Cause) : (s.raise c).alerts.pending = raised s.alerts.pending c := rfl
@[simp] theorem raise_exchange (s : State) (c : Cause) (k : Nat) : (s.raise c).exchange k = s.exchange k := rfl
@[simp] theorem raise_wearOf (s : State) (c : Cause) (r : Nat) : (s.raise c).wearOf r = s.wearOf r := rfl
@[simp] theorem raise_classOf (s : State) (c : Cause) (r : Nat) : (s.raise c).classOf r = s.classOf r := rfl
@[simp] theorem send_address (s : State) (ws : List Word) : (s.send ws).ring.address = s.ring.address := rfl
@[simp] theorem send_cursor (s : State) (ws : List Word) : (s.send ws).ring.cursor = s.ring.cursor := rfl
@[simp] theorem send_sent (s : State) (ws : List Word) : (s.send ws).ring.sent = s.ring.sent ++ [ws] := rfl
@[simp] theorem setWear_notices (s : State) (r : Nat) (w : WearRecord) : (s.setWear r w).wear.notices = s.wear.notices := rfl
@[simp] theorem setWear_classOf (s : State) (r : Nat) (w : WearRecord) (x : Nat) : (s.setWear r w).classOf x = s.classOf x := rfl
@[simp] theorem setExchange_images (s : State) (c : Nat) (x : Exchange) : (s.setExchange c x).coil.images = s.coil.images := rfl
@[simp] theorem setExchange_wave (s : State) (c : Nat) (x : Exchange) : (s.setExchange c x).coil.wave = s.coil.wave := rfl
@[simp] theorem markUnknown_phase (s : State) (rs : List Nat) : (s.markUnknown rs).engine.phase = s.engine.phase := rfl
@[simp] theorem markUnknown_transition (s : State) (rs : List Nat) :
    (s.markUnknown rs).engine.transition = s.engine.transition := rfl
@[simp] theorem markUnknown_pendingOpen (s : State) (rs : List Nat) :
    (s.markUnknown rs).engine.pendingOpen = s.engine.pendingOpen := rfl
@[simp] theorem markUnknown_pendingClose (s : State) (rs : List Nat) :
    (s.markUnknown rs).engine.pendingClose = s.engine.pendingClose := rfl
@[simp] theorem replies_engine (s : State) (kind : Byte) (arg : Word) (e : Envelope) (b : Bool) (a : Answer) :
    (s.replies kind arg e b a).engine = s.engine := rfl
@[simp] theorem replies_control (s : State) (kind : Byte) (arg : Word) (e : Envelope) (b : Bool) (a : Answer) :
    (s.replies kind arg e b a).control = s.control := rfl

end Sys2Proof.Laws
end

