-- ==== Sys2Proof/Laws/Engine.lean ====
section
/-! SUPPORT. What raising a cause, halting the gate, suspending and locking out can do. -/

namespace Sys2Proof.Laws

open Sys2Proof.Machine

/-- Raising a cause makes it pending and leaves every other cause as it was. -/
theorem isRaised_raise (s : State) (c d : Cause) : (s.raise c).isRaised d = (s.isRaised d || decide (d = c)) := by
  cases c <;> cases d <;> simp [State.raise, State.isRaised, raised, Cause.bit]

/-- A halt changes the gate's mode and reason, and raises HALTED when it is an entry. -/
theorem haltGate_eq (s : State) (r : HaltReason) :
    s.haltGate r =
      { s with
        gate.mode := .halt, gate.reason := r,
        alerts.pending := if s.gate.mode = .halt then s.alerts.pending else raised s.alerts.pending .halted } := by
  unfold State.haltGate
  split
  · rename_i h; rw [← h]
  · simp [State.raise]

/-- What the gate does at a STEPPED completion is nothing or a halt for a reason other than NONE. -/
theorem gateCompleted_cases (s : State) (stop : Bool) :
    s.gateCompleted stop = s ∨ ∃ r, r ≠ .none ∧ s.gateCompleted stop = s.haltGate r := by
  unfold State.gateCompleted
  cases s.gate.mode
  · cases stop
    · exact .inl rfl
    · exact .inr ⟨_, by decide, rfl⟩
  · exact .inr ⟨_, by decide, rfl⟩
  · exact .inl rfl
  · exact .inl rfl

/-- What the gate does at a suspension is nothing in FREE, and a halt for a fault otherwise. -/
theorem gateSuspended_eq (s : State) : s.gateSuspended = if s.gate.mode = .free then s else s.haltGate .fault := by
  unfold State.gateSuspended
  cases s.gate.mode <;> rfl

/-- Entry into SUSPENDED does what R130 and R154 give and nothing else. -/
theorem suspend_suspendsTo (s : State) (r : SuspendReason) :
    s.SuspendsTo (s.suspend r) r s.engine.phase.faultPhase := by
  have he : s.suspend r = { s with
      engine.quiet := 0, engine.guardWait := none, engine.suspension := r,
      engine.suspendedPhase := some s.engine.phase.faultPhase, engine.abortNoted := false, engine.phase := .suspended,
      gate.mode := if s.gate.mode = .free then .free else .halt,
      gate.reason := if s.gate.mode = .free then s.gate.reason else .fault,
      alerts.pending :=
        if s.gate.mode = .free ∨ s.gate.mode = .halt then raised s.alerts.pending .suspend
        else raised (raised s.alerts.pending .suspend) .halted } := by
    unfold State.suspend
    simp only [gateSuspended_eq, haltGate_eq, State.raise]
    rcases hm : s.gate with ⟨slot, latch, mode, reason⟩
    cases mode <;> simp_all
  constructor
  · rw [he]
  · rw [he]
  · rw [he]
  · intro c
    rw [he]
    cases hm : s.gate.mode <;> cases c <;> simp [State.isRaised, raised, Cause.bit]

/-- Entry into LOCKED_OUT does what R64, R95 and R140 give and nothing else. -/
theorem lockOut_locksOutTo (s : State) : s.LocksOutTo s.lockOut := by
  cases h : s.resolver.context with
  | none =>
    constructor
    · simp [State.lockOut, State.cancelResolution, h, State.raise]
    · intro _; simp [State.lockOut, State.cancelResolution, h]
    · intro _ h'; simp [h] at h'
    · intro c
      simp [State.lockOut, State.cancelResolution, h, isRaised_raise]
      rfl
  | some ctx =>
    constructor
    · simp [State.lockOut, State.cancelResolution, h, State.raise, State.reexamine]
    · intro h'; simp [h] at h'
    · intro c h'
      rw [h] at h'
      injection h' with h'
      subst h'
      simp [State.lockOut, State.cancelResolution, h, State.reexamine, cancelledResult, cancelledRecord,
        ResultRecord.initial]
    · intro c
      simp [State.lockOut, State.cancelResolution, h, isRaised_raise, State.reexamine]
      cases c <;> simp [State.isRaised]

end Sys2Proof.Laws
end

