-- ==== Sys2Proof/Laws/Ring.lean ====
section
/-! SUPPORT. Which frames the ring port acts on, and all that a frame's arrival can do to the state. -/

namespace Sys2Proof.Laws

open Sys2Proof.Machine

theorem lengthBad_eq_false_iff (e : Envelope) : lengthBad e = false ↔ LengthAgrees e := by
  simp [lengthBad]
  omega

/-- With no READ being filled, a frame is acted on exactly when it is unmarked, of agreeing length, and broadcast or
addressed with status EMPTY, while the ring port listens. -/
theorem disposition_act_iff (s : State) (e : Envelope) (b : Bool) (hf : s.ring.reading = none) :
    s.disposition e = .act b ↔ s.ActsOn e b := by
  have hd : e.dest = 255 ↔ e.dest.toNat = 255 := by
    constructor
    · intro h; simp [h]
    · intro h; apply BitVec.eq_of_toNat_eq; simpa using h
  have ha : s.ring.address.toNat < 16 := s.ring.address.isLt
  rw [State.ActsOn, ← lengthBad_eq_false_iff, hd, State.disposition]
  cases hl : s.control.lockLost
  · cases hr : s.control.resetting
    · cases hm : isCorrupt e
      · by_cases h1 : e.dest.toNat = s.ring.address.toNat
        · have h255 : ¬ s.ring.address.toNat = 255 := by omega
          by_cases h2 : e.status = 0
          · cases h3 : lengthBad e <;> cases b <;> simp_all [isCorrupt, State.Listens]
          · cases b <;> simp_all
        · by_cases h2 : e.dest.toNat = 255
          · cases h3 : lengthBad e <;> cases b <;> simp_all [isCorrupt, State.Listens]
          · cases b <;> simp_all
      · simp_all [isCorrupt]
    · simp_all
  · simp_all

/-- What `receive` answers for a frame that is acted on. -/
theorem receive_of_actsOn (s : State) (kind : Byte) (arg : Word) (e : Envelope) (b : Bool)
    (handle : Bool → Handled × Envelope) (h : s.ActsOn e b) :
    s.receive kind arg e handle =
      (handle b).1.state.send
        (sealedWords kind arg (answered (handle b).2 b s.ring.address (handle b).1.answer)) := by
  simp [State.receive, (disposition_act_iff s e b h.1.2.2).mpr h]

/-- What `receivePlain` answers for a frame that is acted on. -/
theorem receivePlain_of_actsOn (s : State) (kind : Byte) (arg : Word) (e : Envelope) (b : Bool) (h : Handled)
    (ha : s.ActsOn e b) :
    s.receivePlain kind arg e h = h.state.send (sealedWords kind arg (answered e b s.ring.address h.answer)) := by
  simp [State.receivePlain, receive_of_actsOn s kind arg e b _ ha]

/-- All that a frame's arrival can do: nothing, a frame sent on with the state as it was, or its handling and a frame
sent on. -/
theorem receive_cases (s : State) (kind : Byte) (arg : Word) (e : Envelope) (handle : Bool → Handled × Envelope) :
    s.receive kind arg e handle = s ∨ (∃ ws, s.receive kind arg e handle = s.send ws) ∨
      ∃ b ws, s.disposition e = .act b ∧ s.receive kind arg e handle = (handle b).1.state.send ws := by
  cases hd : s.disposition e with
  | cutShort => exact .inl (by simp [State.receive, hd])
  | pass => exact .inr (.inl ⟨_, by simp [State.receive, hd]; rfl⟩)
  | clash => exact .inr (.inl ⟨_, by simp [State.receive, hd]; rfl⟩)
  | badLength b => exact .inr (.inl ⟨_, by simp [State.receive, hd]; rfl⟩)
  | act b =>
    exact .inr (.inr ⟨b, _, rfl, by simp [State.receive, hd]; rfl⟩)

end Sys2Proof.Laws
end

