-- ==== Sys2Proof/Laws/Fill.lean ====
section
/-! SUPPORT. What the filling of a READ can do: it takes words of the space as the state stands, and changes nothing but
the ring port and the count of free values. -/

namespace Sys2Proof.Laws

open Sys2Proof.Machine

@[simp] theorem holdOrSend_control (s : State) (r : Reading) : (s.holdOrSend r).control = s.control := by
  unfold State.holdOrSend; split <;> rfl
@[simp] theorem holdOrSend_topology (s : State) (r : Reading) : (s.holdOrSend r).topology = s.topology := by
  unfold State.holdOrSend; split <;> rfl
@[simp] theorem holdOrSend_store (s : State) (r : Reading) : (s.holdOrSend r).store = s.store := by
  unfold State.holdOrSend; split <;> rfl
@[simp] theorem holdOrSend_resolver (s : State) (r : Reading) : (s.holdOrSend r).resolver = s.resolver := by
  unfold State.holdOrSend; split <;> rfl
@[simp] theorem holdOrSend_gate (s : State) (r : Reading) : (s.holdOrSend r).gate = s.gate := by
  unfold State.holdOrSend; split <;> rfl
@[simp] theorem holdOrSend_engine (s : State) (r : Reading) : (s.holdOrSend r).engine = s.engine := by
  unfold State.holdOrSend; split <;> rfl
@[simp] theorem holdOrSend_coil (s : State) (r : Reading) : (s.holdOrSend r).coil = s.coil := by
  unfold State.holdOrSend; split <;> rfl
@[simp] theorem holdOrSend_wear (s : State) (r : Reading) : (s.holdOrSend r).wear = s.wear := by
  unfold State.holdOrSend; split <;> rfl
@[simp] theorem holdOrSend_alerts (s : State) (r : Reading) : (s.holdOrSend r).alerts = s.alerts := by
  unfold State.holdOrSend; split <;> rfl
@[simp] theorem holdOrSend_pending (s : State) (r : Reading) : (s.holdOrSend r).pending = s.pending := by
  unfold State.holdOrSend; split <;> rfl

@[simp] theorem fillOn_control (s : State) : s.fillOn.control = s.control := by
  unfold State.fillOn; split <;> simp
@[simp] theorem fillOn_topology (s : State) : s.fillOn.topology = s.topology := by
  unfold State.fillOn; split <;> simp
@[simp] theorem fillOn_store (s : State) : s.fillOn.store = s.store := by
  unfold State.fillOn; split <;> simp
@[simp] theorem fillOn_resolver (s : State) : s.fillOn.resolver = s.resolver := by
  unfold State.fillOn; split <;> simp
@[simp] theorem fillOn_gate (s : State) : s.fillOn.gate = s.gate := by
  unfold State.fillOn; split <;> simp
@[simp] theorem fillOn_engine (s : State) : s.fillOn.engine = s.engine := by
  unfold State.fillOn; split <;> simp
@[simp] theorem fillOn_coil (s : State) : s.fillOn.coil = s.coil := by
  unfold State.fillOn; split <;> simp
@[simp] theorem fillOn_wear (s : State) : s.fillOn.wear = s.wear := by
  unfold State.fillOn; split <;> simp
@[simp] theorem fillOn_alerts (s : State) : s.fillOn.alerts = s.alerts := by
  unfold State.fillOn; split <;> simp
@[simp] theorem fillOn_pending (s : State) : s.fillOn.pending = s.pending := by
  unfold State.fillOn; split <;> simp

@[simp] theorem finishRead_control (s : State) : s.finishRead.control = s.control := by
  unfold State.finishRead; split <;> rfl
@[simp] theorem finishRead_topology (s : State) : s.finishRead.topology = s.topology := by
  unfold State.finishRead; split <;> rfl
@[simp] theorem finishRead_store (s : State) : s.finishRead.store = s.store := by
  unfold State.finishRead; split <;> rfl
@[simp] theorem finishRead_resolver (s : State) : s.finishRead.resolver = s.resolver := by
  unfold State.finishRead; split <;> rfl
@[simp] theorem finishRead_gate (s : State) : s.finishRead.gate = s.gate := by
  unfold State.finishRead; split <;> rfl
@[simp] theorem finishRead_engine (s : State) : s.finishRead.engine = s.engine := by
  unfold State.finishRead; split <;> rfl
@[simp] theorem finishRead_coil (s : State) : s.finishRead.coil = s.coil := by
  unfold State.finishRead; split <;> rfl
@[simp] theorem finishRead_wear (s : State) : s.finishRead.wear = s.wear := by
  unfold State.finishRead; split <;> rfl
@[simp] theorem finishRead_alerts (s : State) : s.finishRead.alerts = s.alerts := by
  unfold State.finishRead; split <;> rfl
@[simp] theorem finishRead_pending (s : State) : s.finishRead.pending = s.pending := by
  unfold State.finishRead; split <;> rfl
@[simp] theorem finishRead_free (s : State) : s.finishRead.free = s.free := by
  unfold State.finishRead; split <;> rfl

/-- With no READ being filled an event is followed by nothing. -/
theorem fillOn_idle (s : State) (h : s.ring.reading = none) : s.fillOn = s := by simp [State.fillOn, h]

/-- With no READ being filled a frame is preceded by nothing. -/
theorem finishRead_idle (s : State) (h : s.ring.reading = none) : s.finishRead = s := by simp [State.finishRead, h]

/-- Once a READ has been finished none is being filled. -/
@[simp] theorem finishRead_reading (s : State) : s.finishRead.ring.reading = none := by
  unfold State.finishRead
  split
  · rfl
  · assumption

/-- The words taken now are the first `m` of those left, where an event may fall before the next one. -/
theorem wordsNow_cases (s : State) (sp : Space) (start i n : Nat) :
    ∃ m, m ≤ n ∧ (m < n → sp.partsAt start (i + m) = true) ∧
      s.wordsNow sp start i n = (List.range m).map (fun k => s.wordAt sp (i + k)) := by
  induction n generalizing i with
  | zero => exact ⟨0, by simp [State.wordsNow]⟩
  | succ n ih =>
    unfold State.wordsNow
    split
    · next h => exact ⟨0, by omega, fun _ => by simpa using (Bool.and_eq_true_iff.mp h).1, rfl⟩
    · obtain ⟨m, hm, hp, hw⟩ := ih (i + 1)
      refine ⟨m + 1, by omega, fun h => ?_, ?_⟩
      · have := hp (by omega)
        rwa [show i + (m + 1) = i + 1 + m by omega]
      · rw [hw, List.range_succ_eq_map]
        simp only [List.map_cons, List.map_map, Nat.add_zero]
        congr 1
        exact List.map_congr_left fun k _ => congrArg _ (by simp; omega)

theorem partsAt_iff (sp : Space) (start i : Nat) : sp.partsAt start i = true ↔ MayPart sp start i := by
  cases sp <;> simp [Space.partsAt, MayPart]

/-- A READ held or sent is the READ held or sent in the terms of claims. -/
theorem holdOrSend_eq (s : State) (r : Reading) : s.holdOrSend r = s.holding r := by
  unfold State.holdOrSend State.holding Reading.left Reading.words
  simp only [Nat.sub_eq_zero_iff_le]
  split <;> rfl

/-- A READ held or sent with `m` more words is the READ after it has taken `m` words. -/
theorem holdOrSend_more (s : State) (r : Reading) (m : Nat) :
    s.holdOrSend (r.more ((List.range m).map (fun k => s.wordAt r.space (r.next + k)))) = s.tookWords r m :=
  holdOrSend_eq _ _

theorem wordAt_ring (s : State) (p : RingPort) (n : Nat) (sp : Space) (i : Nat) (h : p.address = s.ring.address) :
    State.wordAt { s with ring := p, free := n } sp i = s.wordAt sp i := by
  cases sp <;> simp only [State.wordAt] <;> try rfl
  unfold State.statusWord
  rw [h]
  rfl

/-- All that can follow an event while a READ is being filled: it takes some more words, up to one before which an event
may fall. -/
theorem fillOn_cases (s : State) (r : Reading) (h : s.ring.reading = some r) :
    ∃ m, m ≤ r.goal - r.filled.length ∧
      (m < r.goal - r.filled.length → MayPart r.space r.start (r.start + r.filled.length + m)) ∧
      s.fillOn = State.tookWords { s with free := s.free + 1 } r m := by
  obtain ⟨m, hm, hp, hw⟩ := wordsNow_cases s r.space r.start r.next r.left
  refine ⟨m, hm, fun h => (partsAt_iff _ _ _).mp (hp h), ?_⟩
  simp only [State.fillOn, h]
  rw [hw, ← holdOrSend_more]
  simp only [wordAt_ring s s.ring (s.free + 1) _ _ rfl]

/-- A frame finds the READ that was being filled with all its words taken. -/
theorem finishRead_eq (s : State) (r : Reading) (h : s.ring.reading = some r) :
    s.finishRead = State.tookWords { s with ring.reading := none } r (r.goal - r.filled.length) := by
  have hw : ∀ sp i, State.wordAt { s with ring.reading := none } sp i = s.wordAt sp i := fun sp i =>
    wordAt_ring s { s.ring with reading := none } s.free sp i rfl
  unfold State.tookWords State.holding Reading.takes
  simp only [List.foldl_cons, List.foldl_nil, hw]
  rw [if_pos (by simp; omega)]
  simp only [State.finishRead, h]
  rfl

/-- All that a READ that has passed its checks can do: the cursor is set, and it takes some of its words, up to one before
which an event may fall. -/
theorem takeRead_cases (s : State) (e : Envelope) (a : ReadArg) (space : Byte) (sp : Space) (start : Nat) :
    let n := min e.payload.length (sp.size - start)
    ∃ m, m ≤ n ∧ (m < n → MayPart sp start (start + m)) ∧
      s.takeRead e a space sp start =
        State.tookWords { s with ring.cursor := some { space := sp, next := start + n }, free := s.free + 1 }
          { env := e, arg := readArgWord a space, space := sp, start := start, goal := n, filled := [] } m := by
  intro n
  have hw : ∀ i, State.wordAt
      { s with ring.cursor := some { space := sp, next := start + n }, free := s.free + 1 } sp i = s.wordAt sp i :=
    fun i => wordAt_ring s { s.ring with cursor := some { space := sp, next := start + n } } (s.free + 1) sp i rfl
  obtain ⟨m, hm, hp, hf⟩ := wordsNow_cases s sp start start n
  refine ⟨m, hm, fun h => (partsAt_iff _ _ _).mp (hp h), ?_⟩
  rw [← holdOrSend_more]
  simp only [State.takeRead, Reading.more, Reading.next, List.length_nil, Nat.add_zero, List.nil_append, hw]
  rw [← hf]

end Sys2Proof.Laws
end

