-- ==== Sys2Proof/Laws/Table.lean ====
section
/-! SUPPORT. What a write to a sparse table does to every index, and the canonical form it keeps. -/

namespace Sys2Proof.Laws

open Sys2Proof.Machine

variable {α : Type}

@[simp] theorem table_get_nil (d : α) (i : Nat) : Table.get d [] i = d := rfl

theorem table_get_of_forall_ne (d : α) (t : Table α) (i : Nat) (h : ∀ e ∈ t, e.1 ≠ i) : Table.get d t i = d := by
  induction t with
  | nil => rfl
  | cons e t ih =>
    obtain ⟨k, v⟩ := e
    have hk : k ≠ i := h (k, v) (by simp)
    simp [Table.get, Ne.symm hk, ih (fun e he => h e (by simp [he]))]

theorem table_get_filter_other (d : α) (t : Table α) (p : Nat × α → Bool) (j : Nat)
    (h : ∀ e ∈ t, e.1 = j → p e = true) : Table.get d (t.filter p) j = Table.get d t j := by
  induction t with
  | nil => rfl
  | cons e t ih =>
    obtain ⟨k, v⟩ := e
    have ih := ih (fun e he => h e (by simp [he]))
    by_cases hk : j = k
    · have hp : p (k, v) = true := h (k, v) (by simp) hk.symm
      simp [hp, Table.get, hk]
    · by_cases hp : p (k, v) = true
      · simp [hp, Table.get, hk, ih]
      · simp [hp, Table.get, hk, ih]

theorem table_get_insertAt_same (d : α) (t : Table α) (i : Nat) (v : α) (h : ∀ e ∈ t, e.1 ≠ i) :
    Table.get d (Table.insertAt i v t) i = v := by
  induction t with
  | nil => simp [Table.insertAt, Table.get]
  | cons e t ih =>
    obtain ⟨k, w⟩ := e
    have hk : k ≠ i := h (k, w) (by simp)
    have ih := ih (fun e he => h e (by simp [he]))
    by_cases hlt : i < k <;> simp [Table.insertAt, Table.get, hlt, Ne.symm hk, ih]

theorem table_get_insertAt_other (d : α) (t : Table α) (i j : Nat) (v : α) (h : j ≠ i) :
    Table.get d (Table.insertAt i v t) j = Table.get d t j := by
  induction t with
  | nil => simp [Table.insertAt, Table.get, h]
  | cons e t ih =>
    obtain ⟨k, w⟩ := e
    by_cases hlt : i < k <;> by_cases hj : j = k <;> simp [Table.insertAt, Table.get, hlt, hj, ih, h]
    omega

/-- Reading the index that a write names gives what was written. -/
@[simp] theorem table_get_put_same [DecidableEq α] (d : α) (t : Table α) (i : Nat) (v : α) :
    Table.get d (Table.put d t i v) i = v := by
  have h : ∀ e ∈ t.filter (fun e => decide (e.1 ≠ i)), e.1 ≠ i := by simp
  by_cases hv : v = d
  · simpa [Table.put, hv] using table_get_of_forall_ne d _ i h
  · simpa [Table.put, hv] using table_get_insertAt_same d _ i v h

/-- Reading any other index gives what it gave before the write. -/
theorem table_get_put_other [DecidableEq α] (d : α) (t : Table α) (i j : Nat) (v : α) (h : j ≠ i) :
    Table.get d (Table.put d t i v) j = Table.get d t j := by
  have hf : Table.get d (t.filter (fun e => decide (e.1 ≠ i))) j = Table.get d t j :=
    table_get_filter_other d t _ j (by intro e _ he; simp [he, h])
  by_cases hv : v = d
  · simpa [Table.put, hv] using hf
  · simpa [Table.put, hv, table_get_insertAt_other d _ i j v h] using hf

/-- What every index holds after a write. -/
theorem table_get_put [DecidableEq α] (d : α) (t : Table α) (i j : Nat) (v : α) :
    Table.get d (Table.put d t i v) j = if j = i then v else Table.get d t j := by
  by_cases h : j = i
  · subst h; simp
  · simp [h, table_get_put_other d t i j v h]

theorem table_mem_insertAt (t : Table α) (i : Nat) (v : α) (e : Nat × α) :
    e ∈ Table.insertAt i v t ↔ e = (i, v) ∨ e ∈ t := by
  induction t with
  | nil => simp [Table.insertAt]
  | cons x t ih =>
    obtain ⟨k, w⟩ := x
    by_cases hlt : i < k <;> simp [Table.insertAt, hlt, ih]
    tauto

theorem table_pairwise_insertAt (t : Table α) (i : Nat) (v : α) (h : t.Pairwise (fun a b => a.1 < b.1))
    (hi : ∀ e ∈ t, e.1 ≠ i) : (Table.insertAt i v t).Pairwise (fun a b => a.1 < b.1) := by
  induction t with
  | nil => simp [Table.insertAt]
  | cons x t ih =>
    obtain ⟨k, w⟩ := x
    obtain ⟨hx, ht⟩ := List.pairwise_cons.mp h
    have hk : k ≠ i := hi (k, w) (by simp)
    by_cases hlt : i < k
    · simp only [Table.insertAt, hlt, if_true, List.pairwise_cons]
      refine ⟨?_, hx, ht⟩
      intro e he
      rcases List.mem_cons.mp he with rfl | he
      · exact hlt
      · exact Nat.lt_trans hlt (hx e he)
    · simp only [Table.insertAt, hlt, if_false, List.pairwise_cons]
      refine ⟨?_, ih ht (fun e he => hi e (by simp [he]))⟩
      intro e he
      rcases (table_mem_insertAt t i v e).mp he with rfl | he
      · simp only; omega
      · exact hx e he

theorem table_wf_filter [DecidableEq α] (d : α) (t : Table α) (p : Nat × α → Bool) (h : Table.wf d t) :
    Table.wf d (t.filter p) :=
  ⟨h.1.filter p, fun e he => h.2 e (List.mem_filter.mp he).1⟩

theorem table_wf_nil [DecidableEq α] (d : α) : Table.wf d ([] : Table α) := by simp [Table.wf]

/-- A write keeps the canonical form. -/
theorem table_wf_put [DecidableEq α] (d : α) (t : Table α) (i : Nat) (v : α) (h : Table.wf d t) :
    Table.wf d (Table.put d t i v) := by
  have hf := table_wf_filter d t (fun e => decide (e.1 ≠ i)) h
  by_cases hv : v = d
  · simpa only [Table.put, hv, if_true] using hf
  · simp only [Table.put, hv, if_false]
    refine ⟨table_pairwise_insertAt _ i v hf.1 (by simp), ?_⟩
    intro e he
    rcases (table_mem_insertAt _ i v e).mp he with rfl | he
    · exact hv
    · exact hf.2 e he

/-- In the canonical form the listed entries are the indices that do not hold the default value. -/
theorem table_mem_iff_get [DecidableEq α] (d : α) (t : Table α) (h : Table.wf d t) (i : Nat) (v : α) :
    (i, v) ∈ t ↔ v ≠ d ∧ Table.get d t i = v := by
  induction t with
  | nil => simp [Table.get]; intro h1 h2; exact h1 h2.symm
  | cons x t ih =>
    obtain ⟨k, w⟩ := x
    obtain ⟨hx, ht⟩ := List.pairwise_cons.mp h.1
    have hw : w ≠ d := h.2 (k, w) (by simp)
    have ih := ih ⟨ht, fun e he => h.2 e (by simp [he])⟩
    by_cases hik : i = k
    · subst hik
      have hno : (i, v) ∉ t := fun hm => absurd (hx _ hm) (by simp)
      simp only [List.mem_cons, Prod.mk.injEq, true_and, hno, or_false, Table.get, if_true]
      constructor
      · rintro rfl; exact ⟨hw, rfl⟩
      · rintro ⟨_, rfl⟩; rfl
    · simp [Table.get, hik, ih]

/-- Two tables in canonical form that hold the same at every index are equal. -/
theorem table_ext [DecidableEq α] (d : α) (t u : Table α) (ht : Table.wf d t) (hu : Table.wf d u)
    (h : ∀ i, Table.get d t i = Table.get d u i) : t = u := by
  have hmem : ∀ e, e ∈ t ↔ e ∈ u := by
    rintro ⟨i, v⟩
    rw [table_mem_iff_get d t ht, table_mem_iff_get d u hu, h]
  have anti : ∀ a b : Nat × α, a.1 < b.1 → ¬ b.1 < a.1 := by intro a b h1 h2; omega
  have nd : ∀ x : Table α, x.Pairwise (fun a b => a.1 < b.1) → x.Nodup := by
    intro x hx
    exact hx.imp (fun {a b} hab => by rintro rfl; exact absurd hab (Nat.lt_irrefl _))
  have hp : List.Perm t u := (List.perm_ext_iff_of_nodup (nd t ht.1) (nd u hu.1)).mpr hmem
  exact hp.eq_of_pairwise (fun a b _ _ h1 h2 => absurd h2 (anti a b h1)) ht.1 hu.1

end Sys2Proof.Laws
end

