-- ==== Sys2Proof/Laws/Coil.lean ====
section
/-! SUPPORT. What the operations on waves, exchanges, confirmations and wear records can do. -/

namespace Sys2Proof.Laws

open Sys2Proof.Machine

theorem mem_touchedChains (l : List Nat) (c : Nat) : c ∈ touchedChains l ↔ c < 8 ∧ ∃ r ∈ l, r / 128 = c := by
  simp [touchedChains]

/-- Replacing a chain's exchange state changes that state alone. -/
theorem setExchange_moves (s : State) (c : Nat) (x : Exchange) : s.Moves (s.setExchange c x) c x := by
  constructor
  · rfl
  · simp [State.setExchange, State.exchange]
  · intro d hd; simp [State.setExchange, State.exchange, table_get_put, hd]

theorem withStatus_eq_having (w : Wave) (c : Nat) (st : RelayStatus) : w.withStatus c st = w.having (some c) st := by
  unfold Wave.withStatus Wave.having
  congr 1
  apply List.filter_congr
  intro x _
  simp
  rw [Bool.and_comm]
  congr 2
  exact propext eq_comm

theorem sensing_eq_having (w : Wave) : w.sensing.map WaveRelay.relay = w.having none .sensing := by
  simp [Wave.sensing, Wave.having]

theorem mark_eq (w : Wave) (rs : List Nat) (st : RelayStatus) : w.mark rs st = { w with relays := w.given rs st } := rfl

@[simp] theorem given_relays (w : Wave) (rs : List Nat) (st : RelayStatus) :
    (w.given rs st).map WaveRelay.relay = w.relays.map WaveRelay.relay := by
  simp only [Wave.given, List.map_map]
  apply List.map_congr_left
  intro x _
  simp only [Function.comp]
  split <;> rfl

/-- The chains of a wave depend on its relays alone, and giving statuses keeps them. -/
theorem chains_eq (w v : Wave) (h : v.relays.map WaveRelay.relay = w.relays.map WaveRelay.relay) : v.chains = w.chains := by
  simp only [Wave.chains, h]

/-- Recording relays UNKNOWN changes the actual state of those relays alone. -/
theorem markUnknown_get (s : State) (rs : List Nat) (r : Nat) :
    Table.get .opened (s.markUnknown rs).engine.actual r =
      if r ∈ rs then .unknown else Table.get .opened s.engine.actual r := by
  simp only [State.markUnknown]
  generalize s.engine.actual = t
  induction rs generalizing t with
  | nil => simp
  | cons x xs ih =>
    rw [List.foldl_cons, ih, table_get_put]
    by_cases h : r ∈ xs <;> by_cases h' : r = x <;> simp [h, h']

/-- Every relay that an assignment lists takes the owner of its last listing, and every other keeps its own. -/
theorem dropOwners_get (h : Holdings) (l : List Nat) (r : Nat) :
    ownerOf (dropOwners h l) r = if r ∈ l then none else ownerOf h r := by
  unfold ownerOf dropOwners
  induction l generalizing h with
  | nil => simp
  | cons x xs ih =>
    rw [List.foldl_cons, ih, table_get_put]
    by_cases h1 : r ∈ xs <;> by_cases h2 : r = x <;> simp [h1, h2]

theorem assignOwners_get_of_not_mem (h : Holdings) (l : List (Nat × Owner)) (r : Nat) (hr : ∀ e ∈ l, e.1 ≠ r) :
    ownerOf (assignOwners h l) r = ownerOf h r := by
  unfold ownerOf assignOwners
  induction l generalizing h with
  | nil => simp
  | cons x xs ih =>
    rw [List.foldl_cons, ih _ (fun e he => hr e (List.mem_cons_of_mem _ he)),
      table_get_put_other _ _ _ _ _ (fun hh => hr x (List.mem_cons_self ..) hh.symm)]

/-- A saturating wear count as a number (R77). -/
theorem addedWear_toNat (c : Word) (n : Nat) : (addedWear c n).toNat = min (c.toNat + n) 4294967295 := by
  simp only [addedWear, BitVec.toNat_ofNat]
  exact Nat.mod_eq_of_lt (by omega)

theorem wearOf_setWear (s : State) (r x : Nat) (w : WearRecord) :
    (s.setWear r w).wearOf x = if x = r then w else s.wearOf x := by
  simp [State.wearOf, State.setWear, table_get_put]

/-- A notice handed on touches the notice list and the alert unit alone. -/
theorem handNotice_frame (s : State) (n : Notice) :
    s.handNotice n = { s with wear.notices := (s.handNotice n).wear.notices, alerts := (s.handNotice n).alerts } := by
  unfold State.handNotice
  split <;> rfl

@[simp] theorem handNotice_wearOf (s : State) (n : Notice) (r : Nat) : (s.handNotice n).wearOf r = s.wearOf r := by
  unfold State.handNotice
  split <;> rfl

/-- A wear increment touches the wear unit and the alert unit alone. -/
theorem addWear_frame (s : State) (r n : Nat) :
    s.addWear r n = { s with wear := (s.addWear r n).wear, alerts := (s.addWear r n).alerts } := by
  have hn : ∀ (x : Notice) (t : State), (t = { s with wear := t.wear, alerts := t.alerts }) →
      t.handNotice x = { s with wear := (t.handNotice x).wear, alerts := (t.handNotice x).alerts } := by
    intro x t h
    generalize ht : t.handNotice x = u
    rw [handNotice_frame, h] at ht
    rw [← ht]
  have hw : ∀ (w : WearRecord) (t : State), (t = { s with wear := t.wear, alerts := t.alerts }) →
      t.setWear r w = { s with wear := (t.setWear r w).wear, alerts := (t.setWear r w).alerts } := by
    intro w t h
    generalize ht : t.setWear r w = u
    rw [State.setWear, h] at ht
    rw [← ht]
  have h1 := hw { s.wearOf r with count := addedWear (s.wearOf r).count n } s rfl
  unfold State.addWear
  simp only
  split <;> split
  · exact hn _ _ (hw _ _ (hn _ _ h1))
  · exact hn _ _ (hw _ _ h1)
  · exact hn _ _ h1
  · exact h1

/-- A wear increment adds to one relay's count and keeps every other count (R77). -/
theorem addWear_count (s : State) (r n x : Nat) :
    ((s.addWear r n).wearOf x).count.toNat =
      if x = r then min ((s.wearOf r).count.toNat + n) 4294967295 else (s.wearOf x).count.toNat := by
  rw [← addedWear_toNat]
  unfold State.addWear
  simp only
  split <;> split <;> simp only [handNotice_wearOf, wearOf_setWear] <;> by_cases h : x = r <;> simp [h]

/-- A health change touches the wear unit and the alert unit alone. -/
theorem degrade_frame (s : State) (r : Nat) :
    s.degrade r = { s with wear := (s.degrade r).wear, alerts := (s.degrade r).alerts } := by
  unfold State.degrade
  split
  · rfl
  · rw [handNotice_frame]; rfl
  · rfl

/-- A health change moves one relay from GOOD to SUSPECT or from SUSPECT to RETIRED, and keeps every count (R126). -/
theorem degrade_wearOf (s : State) (r x : Nat) :
    (s.degrade r).wearOf x =
      if x = r then
        { s.wearOf r with health := if (s.wearOf r).health = .good then .suspect else .retired }
      else s.wearOf x := by
  unfold State.degrade
  split <;> rename_i h
  · rw [wearOf_setWear]; simp [h]
  · rw [handNotice_wearOf, wearOf_setWear]; simp [h]
  · by_cases hx : x = r
    · subst hx; simp [h]; rw [← h]
    · simp [hx]

theorem insertConfirm_perm (drawn r : Nat) (l : List Nat) : (insertConfirm drawn r l).Perm (r :: l) := by
  induction l with
  | nil => simp [insertConfirm]
  | cons x xs ih =>
    unfold insertConfirm
    split
    · exact .refl _
    · exact (List.Perm.cons x ih).trans (List.Perm.swap r x xs)

/-- The order of confirmations is an order of the relays confirmed. -/
theorem confirmOrder_perm (s : State) (close : Bool) (rs : List Nat) : (s.confirmOrder close rs).Perm rs := by
  unfold State.confirmOrder
  split
  · exact .refl _
  · have h : ∀ (l acc : List Nat), (l.foldl (fun a r => insertConfirm s.free r a) acc).Perm (l ++ acc) := by
      intro l
      induction l with
      | nil => intro acc; exact .refl _
      | cons x xs ih =>
        intro acc
        rw [List.foldl_cons]
        refine (ih _).trans ?_
        exact ((insertConfirm_perm s.free x acc).append_left xs).trans List.perm_middle
    simpa using h rs []

/-- The weight of a confirmation by the HOT mark of the transition (R76). -/
theorem wearWeight_eq (s : State) (close : Bool) :
    wearWeight s.isHot close s.control.params.hotWeight =
      if ∃ t, s.engine.transition = some t ∧ t.hot = true then s.control.params.hotWeight
      else if close then 1 else 0 := by
  unfold wearWeight State.isHot
  cases h : s.engine.transition with
  | none => simp
  | some t => cases ht : t.hot <;> simp [ht]

/-- The confirmation of one relay touches its actual state, the pending lists, the wear unit and the alert unit alone. -/
theorem confirm_frame (s : State) (close : Bool) (r : Nat) :
    s.confirm close r =
      { s with
        engine.actual := s.engine.actual.put .opened r (if close then .closed else .opened),
        engine.pendingOpen := s.engine.pendingOpen.filter (fun x => x ≠ r),
        engine.pendingClose := s.engine.pendingClose.filter (fun x => x ≠ r),
        wear := (s.confirm close r).wear, alerts := (s.confirm close r).alerts } := by
  unfold State.confirm
  rw [addWear_frame]

/-- The confirmation of one relay adds to its count alone (R76, R77). -/
theorem confirm_count (s : State) (close : Bool) (r x : Nat) :
    ((s.confirm close r).wearOf x).count.toNat =
      if x = r then
        min ((s.wearOf r).count.toNat + wearWeight s.isHot close s.control.params.hotWeight) 4294967295
      else (s.wearOf x).count.toNat :=
  addWear_count _ _ _ _

/-- What confirming relays one by one does to the state. -/
structure Confirmed (s u : State) (close : Bool) (rs : List Nat) : Prop where
  rest : u =
    { s with
      engine.actual := u.engine.actual, engine.pendingOpen := u.engine.pendingOpen,
      engine.pendingClose := u.engine.pendingClose, wear := u.wear, alerts := u.alerts }
  actual : ∀ r, Table.get .opened u.engine.actual r =
    if r ∈ rs then (if close then .closed else .opened) else Table.get .opened s.engine.actual r
  opens : u.engine.pendingOpen = s.engine.pendingOpen.filter (fun r => r ∉ rs)
  closes : u.engine.pendingClose = s.engine.pendingClose.filter (fun r => r ∉ rs)
  counts : ∀ r, (u.wearOf r).count.toNat =
    if r ∈ rs then
      min ((s.wearOf r).count.toNat + wearWeight s.isHot close s.control.params.hotWeight) 4294967295
    else (s.wearOf r).count.toNat

/-- What confirming relays one by one can do. -/
theorem confirmEach_confirmed (close : Bool) (rs : List Nat) :
    ∀ s : State, rs.Nodup → Confirmed s (s.confirmEach close rs) close rs := by
  unfold State.confirmEach
  induction rs with
  | nil =>
    intro s _
    constructor <;> simp
  | cons x xs ih =>
    intro s hn
    have hx : x ∉ xs := (List.nodup_cons.mp hn).1
    have hs := ih (s.confirm close x) (List.nodup_cons.mp hn).2
    have he := confirm_frame s close x
    have h1 : (s.confirm close x).engine = { s.engine with
        actual := s.engine.actual.put .opened x (if close then .closed else .opened),
        pendingOpen := s.engine.pendingOpen.filter (fun y => y ≠ x),
        pendingClose := s.engine.pendingClose.filter (fun y => y ≠ x) } := by rw [he]
    have h2 : (s.confirm close x).control = s.control := by rw [he]
    have h3 : (s.confirm close x).isHot = s.isHot := by simp only [State.isHot, h1]
    rw [List.foldl_cons]
    generalize hu : xs.foldl (fun t r => t.confirm close r) (s.confirm close x) = u at hs ⊢
    constructor
    · rw [hs.rest, he]
    · intro r
      rw [hs.actual r, h1, table_get_put]
      by_cases a : r ∈ xs <;> by_cases b : r = x <;> simp [a, b]
    · rw [hs.opens, h1, List.filter_filter]
      apply List.filter_congr
      intro r _
      by_cases a : r ∈ xs <;> by_cases b : r = x <;> simp [a, b]
    · rw [hs.closes, h1, List.filter_filter]
      apply List.filter_congr
      intro r _
      by_cases a : r ∈ xs <;> by_cases b : r = x <;> simp [a, b]
    · intro r
      rw [hs.counts r, h2, h3, confirm_count]
      by_cases a : r ∈ xs <;> by_cases b : r = x
      · subst b; exact absurd a hx
      all_goals simp [a, b, hx]

@[simp] theorem confirm_ring (s : State) (close : Bool) (r : Nat) : (s.confirm close r).ring = s.ring := by
  rw [confirm_frame]

/-- `s` with another ring port and another count of free values: all that the filling of a READ can change. -/
def apart (s : State) (p : RingPort) (n : Nat) : State := { s with ring := p, free := n }

theorem handNotice_apart (s : State) (p : RingPort) (n : Nat) (x : Notice) :
    (apart s p n).handNotice x = apart (s.handNotice x) p n := by
  unfold State.handNotice apart
  split <;> rfl

theorem setWear_apart (s : State) (p : RingPort) (n r : Nat) (w : WearRecord) :
    (apart s p n).setWear r w = apart (s.setWear r w) p n := rfl

theorem addWear_apart (s : State) (p : RingPort) (n r k : Nat) :
    (apart s p n).addWear r k = apart (s.addWear r k) p n := by
  unfold State.addWear
  simp only [show ∀ r, (apart s p n).wearOf r = s.wearOf r from fun _ => rfl,
    show ∀ r, (apart s p n).classOf r = s.classOf r from fun _ => rfl]
  split <;> split <;> simp only [setWear_apart, handNotice_apart]

/-- A confirmation neither reads nor writes the ring port and the count of free values. -/
theorem confirm_apart (s : State) (p : RingPort) (n : Nat) (close : Bool) (r : Nat) :
    (apart s p n).confirm close r = apart (s.confirm close r) p n := by
  unfold State.confirm
  exact addWear_apart
    { s with
      engine.actual := s.engine.actual.put .opened r (if close then .closed else .opened),
      engine.pendingOpen := s.engine.pendingOpen.filter (fun x => x ≠ r),
      engine.pendingClose := s.engine.pendingClose.filter (fun x => x ≠ r) } p n r _

/-- A filling changes the ring port, but for its address, and the count of free values. -/
theorem fillOn_apart (s : State) :
    s.fillOn = apart s s.fillOn.ring s.fillOn.free ∧ s.fillOn.ring.address = s.ring.address := by
  unfold State.fillOn State.holdOrSend
  split
  · split <;> exact ⟨rfl, rfl⟩
  · exact ⟨rfl, rfl⟩

/-- Whatever a READ takes among them, the confirmations of one event leave what they leave one after another. -/
theorem confirmAll_apart (s : State) (close : Bool) (rs : List Nat) : ∃ p n, p.address = s.ring.address ∧
    s.confirmAll close rs = apart (s.confirmEach close (s.confirmOrder close rs)) p n := by
  unfold State.confirmAll State.confirmEach
  generalize s.confirmOrder close rs = l
  suffices h : ∀ (l : List Nat) (u : State) (p : RingPort) (n : Nat), p.address = s.ring.address →
      ∃ p' n', p'.address = s.ring.address ∧
        l.foldl (fun t r => (t.confirm close r).fillOn) (apart u p n) =
          apart (l.foldl (fun t r => t.confirm close r) u) p' n' from h l s s.ring _ rfl
  intro l
  induction l with
  | nil => exact fun u p n hp => ⟨p, n, hp, rfl⟩
  | cons x xs ih =>
    intro u p n hp
    rw [List.foldl_cons, List.foldl_cons, confirm_apart]
    obtain ⟨h1, h2⟩ := fillOn_apart (apart (u.confirm close x) p n)
    rw [h1]
    exact ih (u.confirm close x) _ _ (h2.trans hp)

/-- With no READ being filled the confirmations of one event follow one another (R110). -/
theorem confirmAll_idle (s : State) (close : Bool) (rs : List Nat) (h : s.ring.reading = none) :
    s.confirmAll close rs = State.confirmEach { s with free := s.free + 1 } close (s.confirmOrder close rs) := by
  unfold State.confirmAll State.confirmEach
  generalize s.confirmOrder close rs = l
  have hu : State.ring { s with free := s.free + 1 } = s.ring := rfl
  revert hu
  generalize { s with free := s.free + 1 } = u
  induction l generalizing u with
  | nil => intro _; rfl
  | cons x xs ih =>
    intro hu
    rw [List.foldl_cons, List.foldl_cons, fillOn_idle _ (by rw [confirm_ring, hu, h])]
    exact ih _ (by rw [confirm_ring, hu])

/-- What the confirmation of several relays does with no READ being filled, in whatever order they are taken (R90, R92,
R110). -/
theorem confirmAll_confirmsTo (s : State) (close : Bool) (rs : List Nat) (h : rs.Nodup) (hr : s.ring.reading = none) :
    State.ConfirmsTo s (s.confirmAll close rs) close rs := by
  have hp := confirmOrder_perm s close rs
  have hm : ∀ r, r ∈ s.confirmOrder close rs ↔ r ∈ rs := fun r => hp.mem_iff
  have hc := confirmEach_confirmed close (s.confirmOrder close rs) { s with free := s.free + 1 } (hp.nodup_iff.mpr h)
  rw [confirmAll_idle s close rs hr]
  constructor
  · exact ⟨_, hp, rfl⟩
  · exact hc.rest
  · intro r; simpa only [hm] using hc.actual r
  · simpa only [hm] using hc.opens
  · simpa only [hm] using hc.closes
  · intro r
    rw [hc.counts r, ← wearWeight_eq]
    simp only [hm]
    rfl

/-! ### The sense period -/

/-- In a wave in ascending order a relay is the relay of a chosen entry exactly when its own entry is chosen. -/
theorem mem_relays_filter {l : List WaveRelay} (h : Ascending (l.map WaveRelay.relay)) (p : WaveRelay → Bool)
    (x : WaveRelay) (hx : x ∈ l) : x.relay ∈ (l.filter p).map WaveRelay.relay ↔ p x = true := by
  have hn : (l.map WaveRelay.relay).Nodup := h.imp (fun {a b} hab => Nat.ne_of_lt hab)
  constructor
  · intro hm
    obtain ⟨y, hy, e⟩ := List.mem_map.mp hm
    obtain ⟨hy, hp⟩ := List.mem_filter.mp hy
    rwa [List.inj_on_of_nodup_map hn hx hy e.symm]
  · exact fun hp => List.mem_map.mpr ⟨x, List.mem_filter.mpr ⟨hx, hp⟩, rfl⟩

/-- What a completed sense exchange does to the wave (R90, R91). -/
theorem sensed_eq (w : Wave) (c : Nat) (made : Image) (h : Ascending (w.relays.map WaveRelay.relay)) :
    (w.mark ((w.examined c).filter (fun r => decide (made.getLsbD (r % 128) = w.close))) .confirmed).spend
        ((w.examined c).filter (fun r => decide (made.getLsbD (r % 128) ≠ w.close))) =
      { w with relays := w.sensed c made } := by
  unfold Wave.spend Wave.mark Wave.sensed
  dsimp only
  congr 1
  rw [List.map_map]
  apply List.map_congr_left
  intro x hx
  have hex : x.relay ∈ w.examined c ↔ x.relay / 128 = c ∧ x.status = .sensing ∧ x.spent = false := by
    rw [Wave.examined, mem_relays_filter h _ x hx, decide_eq_true_eq]
  simp only [Function.comp, List.mem_filter, hex, decide_eq_true_eq]
  by_cases h1 : x.relay / 128 = c ∧ x.status = .sensing ∧ x.spent = false
  · by_cases h2 : made.getLsbD (x.relay % 128) = w.close
    · simp [h1, h2]
    · by_cases h3 : x.senseTimeout = 0
      · simp [h1, h2, h3, hex]
      · simp only [h1, h2, h3, hex, and_self, and_false, if_true, if_false, decide_false]
        rw [← h1.2.1, ← h1.2.2]
  · simp [hex, h1]

@[simp] theorem sensed_relays (w : Wave) (c : Nat) (made : Image) :
    (w.sensed c made).map WaveRelay.relay = w.relays.map WaveRelay.relay := by
  unfold Wave.sensed
  rw [List.map_map]
  apply List.map_congr_left
  intro x _
  simp only [Function.comp]
  repeat' split
  all_goals rfl

/-- The deadline is the largest timeout among the relays still SENSING (R90). -/
theorem senseDeadline_eq (w : Wave) (m : Nat) (h : LargestTimeout w.relays m) : senseDeadline w.sensing = m := by
  have key : ∀ (l : List WaveRelay) (a : Nat), (∀ x ∈ l, x.senseTimeout ≤ m) → a ≤ m →
      (a = m ∨ ∃ x ∈ l, x.senseTimeout = m) → l.foldl (fun m r => max m r.senseTimeout) a = m := by
    intro l
    induction l with
    | nil =>
      intro a _ _ h
      simpa using h
    | cons x l ih =>
      intro a h1 h2 h3
      have hx := h1 x (by simp)
      rw [List.foldl_cons]
      refine ih _ (fun y hy => h1 y (by simp [hy])) (by omega) ?_
      rcases h3 with h3 | ⟨y, hy, h3⟩
      · left; omega
      · rcases List.mem_cons.mp hy with rfl | hy
        · left; omega
        · exact .inr ⟨y, hy, h3⟩
  obtain ⟨x, hx, hs, hm⟩ := h.attained
  refine key _ 0 ?_ (Nat.zero_le m) (.inr ⟨x, by simp [Wave.sensing, hx, hs], hm⟩)
  intro y hy
  simp only [Wave.sensing, List.mem_filter, decide_eq_true_eq] at hy
  exact h.above y hy.1 hy.2

/-- What the sense period does next while a relay is SENSING: it ends when the deadline has been reached and no exchange
is in flight, and otherwise goes on (R90, R91). -/
theorem senseProgress_eq (s : State) (w : Wave) (d m : Nat) (reached now : Bool) (hw : s.coil.wave = some w)
    (hst : w.stage = .sensing d reached) (h : LargestTimeout w.relays m) :
    let passed := reached || now || decide (m = 0)
    s.senseProgress now =
      if passed && !(w.chains.any (fun c => (s.exchange c).inFlight)) then
        s.contactFails { w with stage := .sensing m passed }
      else { s with coil.wave := some { w with stage := .sensing m passed } } := by
  have hne : w.sensing ≠ [] := by
    obtain ⟨x, hx, hs, _⟩ := h.attained
    exact List.ne_nil_of_mem (List.mem_filter.mpr ⟨hx, by simp [hs]⟩)
  simp only [State.senseProgress, hw, hst, hne, if_false, senseDeadline_eq w m h]

end Sys2Proof.Laws
end

