-- ==== Sys2Proof/WellFormed.lean ====
section
/-! DEFINITION. Which terms of `Instr` are commands of their row. The operands of most rows take every value; the rows of
anomalous frames and of unnamed codes name a condition on theirs. -/

namespace Sys2Proof

/-- Whether the operands are those of a command of the row the constructor names. -/
def Instr.wellFormed : Instr → Bool
  | .write _ _ space => decide (10 ≤ space.toNat)
  | .read _ _ space => decide (space.toNat ≠ 15)
  | .controlBadOperation _ _ operation => decide (operation.toNat = 0 ∨ 10 < operation.toNat)
  | .frameCrcFail f => !Machine.crcAgrees f
  | .shortFrame words => decide (words.length < 5)
  | .frameNotForThisController f =>
    Machine.crcAgrees f && (Machine.isCorrupt f.env || decide (f.kind.toNat = 0 ∨ 5 < f.kind.toNat) ||
      decide (f.kind ≠ Machine.kindPoll ∧ f.env.dest.toNat ≠ 255))
  | .stepCheck _ _ | .stepStage _ _ | .stepApply _ _ | .stepBadAction _ _ | .resolutionComplete
  | .writeRelayMap _ _ | .writeClass _ _ | .writePorts _ _ | .writeSiteEnable _ _ | .writePinMap _ _
  | .writePortMap _ _ | .writeRouteDir _ _ | .writeEntries _ _ | .writeWear _ _ | .writeConfig _ _
  | .readNotices _ _ | .enterRun _ _ | .enterConfigure _ _ | .setGate _ _ | .abort _ _ | .resume _ _
  | .rollback _ _ | .safeOpen _ _ | .discardStaged _ _ | .ackAlert _ _ | .softReset _ _ | .poll _ _
  | .frameDuringReset _ | .trigEdge | .qackHigh | .guardTimeout | .shiftComplete _ | .writeEcho _ _
  | .senseEcho _ _ _ | .noEcho _ | .staleEcho _ _ | .timedWaitEnd | .senseIntervalEnd _ | .senseDeadline
  | .powerOn | .rstnLow | .rstnHigh | .symbolLockLost | .symbolLockReturn | .linkLoss | .resetEnd _ => true

end Sys2Proof
end

