-- ==== Sys2Proof/Tests/Slice0.lean ====
section
/-! SUPPORT. Tests of the model against the spec's encodings and worked examples, and one witness for the hypotheses of
every statement that has some. -/

namespace Sys2Proof.Tests

open Sys2Proof Sys2Proof.Machine

/-! ### Small frames and states -/

/-- An addressed frame for ring address 0 that carries `ws`. -/
def addressed (ws : List Word) : Envelope :=
  { dest := 0, tag := 7, length := BitVec.ofNat 8 ws.length, status := 0, reason := 0, accepts := 0, filled := 0,
    refusals := 0, marks := 0, spare := 0, payload := ws, crcHigh := 0 }

/-- A broadcast frame that carries `ws`. -/
def broadcast (ws : List Word) : Envelope := { addressed ws with dest := 255 }

def writeAt (start : BitVec 16) : WriteArg := { start := start, gap := 0 }
def readAt (start : BitVec 16) (resume : Bool) : ReadArg := { start := start, resume := resume, gap := 0 }
def control (operand : BitVec 16) : ControlArg := { operand := operand, gap := 0 }

/-- A STEP of route set 30 for the owners in `owners`. -/
def stepOf (owners : BitVec 9) (mode : BitVec 2) : StepArg :=
  { routeSet := 30, owners := owners, mode := mode, gap19 := 0, gap23 := 0, gap31 := 0 }

def inMode (m : Mode) : State := { State.reset with control.mode := m }

def class1 : ClassEntry :=
  { ClassEntry.initial with operate := 1000, release := 400, settle := 500, ratedLife := 5000, derate := 10 }

def class2 : ClassEntry :=
  { ClassEntry.initial with
    operate := 500, release := 200, settle := 300, ratedLife := 1000, derate := 20, warn := 80, retire := 150 }

def joining (a b : Byte) (cls : BitVec 4) : RelayEntry := { present := true, a := a, b := b, cls := cls }

/-- The board of the worked resolution of section 3.8, in RUN after transition 41. -/
def board : State :=
  { inMode .run with
    control.params.waveLimit := 2,
    topology.relayMap :=
      [(0, joining 0 64 1), (1, joining 64 80 1), (4, joining 1 64 1), (7, joining 0 104 2), (12, joining 32 65 1),
        (13, joining 65 81 1), (14, joining 1 65 1), (15, joining 65 88 2), (22, joining 32 66 1),
        (23, joining 66 81 1), (24, joining 1 66 1), (25, joining 66 88 2), (26, joining 33 66 1),
        (36, joining 33 67 1), (37, joining 67 88 2), (140, joining 105 106 2), (141, joining 105 107 2)],
    topology.classes := [(1, class1), (2, class2)],
    topology.ports :=
      [(0, { role := .force, guarded := true }), (1, { role := .force, guarded := true }),
        (8, { role := .sense, guarded := false })],
    topology.sites := [(0, true), (1, true)],
    topology.pinMap := [(0, some 0), (1, some 1), (32, some 32), (33, some 33)],
    topology.portMap := [(0, some 0), (1, some 8), (16, some 1), (17, some 8)],
    store.directory := [(30, { defined := true, first := 200, count := 4, stop := false })],
    store.pool := [(200, .path 0 0 .auto), (201, .path 1 0 .auto), (202, .path 1 1 .auto), (203, .direct 140)],
    engine.current := 41, engine.lastCompleted := 41,
    engine.holdings :=
      [(0, some (.site 0)), (1, some (.site 0)), (7, some (.site 0)), (12, some (.site 1)), (13, some (.site 1)),
        (141, some .common)],
    engine.actual := [(0, .closed), (1, .closed), (7, .closed), (12, .closed), (13, .closed), (141, .closed)],
    wear.records :=
      [(1, { count := 6000000, health := .retired }), (24, { count := 1000000, health := .good })] }

/-- The context of the worked resolution's second attempt: REPLACE set 30 for SITE0 and COMMON. -/
def attempt (owners : BitVec 9) (action : Action) : Resolution := board.contextFor (stepOf owners 0) .replace action

/-! ### CRC, and words written out from section 10.7 -/

/-- The CRC of R171 over the bytes 31 to 38 hexadecimal, worked out from the rule bit by bit outside the model. -/
theorem test_crc_of_two_words : crc16 [0x31323334, 0x35363738] = 0xA12B := by decide +kernel

/-- A WRITE to ENTRIES at index 200: kind 2, destination 0, tag 7, length 1; space 7 in the top byte. -/
theorem test_frame_words : bodyWords kindWrite (writeArgWord (writeAt 200) 7) (addressed [0x80000005]) =
    [0x02000701, 0x070000C8, 0, 0, 0x80000005] := by decide

/-- A STEP for SITE0 and COMMON, REPLACE, STAGE: bits 7-0 the route set, 16-8 the owners, 21-20 the mode, 25-24 the
action. -/
theorem test_step_argument : stepArgWord (stepOf 0x101 0) 1 = 0x0101011E := by decide
theorem test_read_argument : readArgWord (readAt 8 true) 10 = 0x0A010008 := by decide
theorem test_control_argument : controlArgWord (control 3) 3 = 0x03000003 := by decide

/-- A PATH entry: bits 4-0 the pin, 11-8 the port, 20-16 the trunk, 31 being AUTO; a DIRECT entry sets bit 31. -/
theorem test_entry_words : Entry.ofWord 0x001F0100 = some (.path 0 1 .auto) ∧
    Entry.ofWord 0x8000008C = some (.direct 140) ∧ Entry.ofWord 0x00100000 = none ∧ Entry.ofWord 0x80000400 = none := by
  decide
theorem test_dir_words : DirEntry.ofWord 0x400400C8 = some { defined := true, first := 200, count := 4, stop := false } ∧
    DirEntry.ofWord 0x00410000 = none := by decide
theorem test_relay_word : (joining 3 64 2).word = 0x01024003 := by decide
theorem test_pin_words : pinOfWord 63 = some (some 63) ∧ pinOfWord 64 = none ∧ pinOfWord 255 = some none := by decide
theorem test_port_words : portOfWord 80 = some (some 0) ∧ portOfWord 111 = some (some 31) ∧ portOfWord 79 = none ∧
    portOfWord 112 = none ∧ portOfWord 255 = some none := by decide
theorem test_class_clamps : (ClassEntry.initial.written 2 0x01650000).word 2 = 0x01640001 ∧
    (ClassEntry.initial.written 3 0x0000FF00).word 3 = 0x0000FF01 := by decide
theorem test_config_clamps : ((Params.initial 0).written 0 65).waveLimit = 64 ∧
    ((Params.initial 0).written 0 0).waveLimit = 1 ∧ ((Params.initial 0).written 3 300).hotWeight = 255 ∧
    ((Params.initial 0).written 5 0xFFFF).mask = 0x1FFF := by decide

/-- No row of the table has bits, so no word spells a command (log 27). -/
theorem test_no_word_is_a_command : decodeTableWord 32 0 = none ∧ State.reset.withFetchWord 32 0 = State.reset := by
  decide

/-! ### Well-formed commands, and one ill-formed term for each check -/

theorem test_wellFormed : (Instr.write (addressed []) (writeAt 0) 10).wellFormed = true ∧
    (Instr.shortFrame [1, 2, 3, 4]).wellFormed = true ∧
    (Instr.controlBadOperation (addressed []) (control 0) 11).wellFormed = true := by decide
theorem test_illFormed_write : (Instr.write (addressed []) (writeAt 0) 9).wellFormed = false := by decide
theorem test_illFormed_read : (Instr.read (addressed []) (readAt 0 false) 15).wellFormed = false := by decide
theorem test_illFormed_operation : (Instr.controlBadOperation (addressed []) (control 0) 10).wellFormed = false := by
  decide
theorem test_illFormed_short : (Instr.shortFrame [1, 2, 3, 4, 5]).wellFormed = false := by decide

/-- A frame of kind 4 whose CRC agrees: no damaged frame. -/
def sealedFrame (marks : Byte) : Frame :=
  let e := { addressed [] with marks := marks }
  { kind := 4, arg := 0, env := e, crc := crc16 (bodyWords 4 0 e) }

theorem test_illFormed_crcFail : (Instr.frameCrcFail (sealedFrame 0)).wellFormed = false := by decide +kernel
theorem test_crcFail : (Instr.frameCrcFail { sealedFrame 0 with crc := 0 }).wellFormed = true := by decide +kernel
theorem test_notForThis : (Instr.frameNotForThisController (sealedFrame 1)).wellFormed = true := by decide +kernel
theorem test_illFormed_notForThis :
    (Instr.frameNotForThisController { sealedFrame 0 with env.dest := 255 }).wellFormed = false := by decide +kernel

/-! ### The worked cases of chapter 4 -/

/-- Case A: relays 130, 5 and 131. -/
theorem test_times_case_a : switchTime class2 false 600000 = 224 ∧ switchTime class1 true 3333333 = 1600 ∧
    switchTime class2 true 1250000 = 1000 := by decide
/-- Case C: the cap, and the bounds. -/
theorem test_times_case_c : switchTime class2 true 2600000 = 1120 ∧ switchTime class2 false 4294967295 = 280 ∧
    switchTime { class2 with derate := 100 } true 2600000 = 2400 ∧ switchTime { class2 with derate := 100 } true 0 = 800 := by
  decide
/-- Case D: the thresholds of class 2. -/
theorem test_thresholds_case_d : warnThreshold class2 = 800000 ∧ retireThreshold class2 = 1500000 := by decide

/-- Case E: relay 900 of class 9 at count 989, SUSPECT, in a HOT transition of weight 20. -/
def worn : State :=
  { inMode .run with
    control.params.hotWeight := 20,
    topology.relayMap := [(900, joining 0 64 9)],
    topology.classes := [(9, { ClassEntry.initial with warn := 99, retire := 100 })],
    wear.records := [(900, { count := 989, health := .suspect })],
    engine.transition := some
      { kind := .stepped, number := 1, waveLimit := 1, guarded := 0, stop := false, hot := true } }

theorem test_two_crossings_case_e : (worn.confirm false 900).wearOf 900 = { count := 1009, health := .retired } ∧
    (worn.confirm false 900).wear.notices =
      [{ relay := 900, kind := .warn, count := 1009 }, { relay := 900, kind := .retire, count := 1009 }] := by
  decide

/-! ### The worked resolution of section 3.8 -/

/-- The first attempt, for both sites and COMMON, fails: a SHORT between nodes 80 and 81 in net 0. -/
theorem test_first_attempt : board.resolve (attempt 0x103 .stage) =
    .error { Conflict.bare .short with node1 := some 80, node2 := some 81, net := some 0 } := by
  decide +kernel

/-- The second attempt gives the plan of the worked resolution. -/
theorem test_second_attempt : board.resolve (attempt 0x101 .stage) =
    .ok
      { routeSet := 30, action := .stage, stop := false, baseNumber := 41, opens := [7, 141],
        closes := [(4, .site 0), (24, .site 0), (25, .site 0), (140, .common)], reassigned := [], waveLimit := 2,
        openWaves := 1, closeWaves := 2, guarded := 1, duration := 2530, bound := false } := by
  decide +kernel

/-! ### The worked example of section 1.10 -/

/-- The two-site board before its first ENTER_RUN, with class 1 as given. -/
def firstBoard (class1Operate : BitVec 16) (guardAt24 : Bool) (alias37 : BitVec 6) : State :=
  { State.reset with
    topology.relayMap :=
      [(0, joining 0 64 1), (1, joining 64 80 1), (2, joining 32 65 1), (3, joining 65 81 1), (4, joining 1 66 2),
        (5, joining 66 104 2), (130, joining 64 0 2), (300, { joining 200 200 0 with present := false })],
    topology.classes :=
      [(1, { ClassEntry.initial with operate := class1Operate }), (2, { ClassEntry.initial with operate := 500 })],
    topology.ports :=
      [(0, { role := .force, guarded := true }), (1, { role := .force, guarded := true })] ++
        (if guardAt24 then [(24, { role := .passive, guarded := true })] else []),
    topology.sites := [(0, true), (1, true)],
    topology.pinMap := [(0, some 0), (1, some 1), (32, some 32), (37, some alias37)],
    topology.portMap := [(0, some 0), (1, some 24), (16, some 1)] }

theorem test_four_validations :
    (firstBoard 0 true 1).validate = { outcome := .badClass, index := 0, related := 1 } ∧
    (firstBoard 1000 true 1).validate = { outcome := .badGuard, index := 24, related := 104 } ∧
    (firstBoard 1000 false 1).validate = { outcome := .pinAlias, index := 37, related := 1 } ∧
    (firstBoard 1000 false 33).validate = { outcome := .ok, index := 0, related := 0 } := by decide

/-! ### The worked poll of section 11.3 -/

/-- The second controller's claim: SUSPEND masked, STALE pending; address and arbitration number 7. -/
def polled : State :=
  { inMode .run with
    ring.address := 7, control.params.arbitration := 7, control.params.mask := 1#14 <<< 12,
    alerts.pending := (1#14 <<< 12) ||| (1#14 <<< 8) }

theorem test_poll_second_controller : polled.claimLevel = 4 ∧ polled.claimWord = 0x80000477 ∧
    polled.beats 0x80000144 = true ∧ polled.beats 0x800004C2 = false := by decide

/-! ### The chains of section 5.6 -/

/-- A close wave of relays 131 and 140 on chain 1 and 300 and 310 on chain 2, in a STEPPED transition. -/
def closing : State :=
  { inMode .run with
    engine.phase := .closing, engine.current := 1,
    engine.transition := some
      { kind := .stepped, number := 1, waveLimit := 4, guarded := 0, stop := false, hot := false },
    engine.pendingClose := [131, 140, 300, 310],
    topology.relayMap := [(131, joining 0 64 1), (140, joining 0 65 3), (300, joining 1 64 4), (310, joining 1 65 1)],
    topology.classes :=
      [(1, class1), (3, { class1 with mode := .sensed, senseTimeout := 60 }),
        (4, { class1 with mode := .sensed, senseTimeout := 100 })] }

/-- The wave as it is formed. -/
def shifting : State := closing.formWave true 4

theorem test_new_images : shifting.coil.images = [(1, (1#128 <<< 3) ||| (1#128 <<< 12)), (2, (1#128 <<< 44) ||| (1#128 <<< 54))] ∧
    shifting.coil.exchanges = [(1, .writing 1 .shifting), (2, .writing 1 .shifting)] := by decide

/-! ### Reset -/

theorem test_reset_words : State.reset.wordAt .status 0 = 0x00030000 ∧ State.reset.wordAt .status 1 = 0x01000000 ∧
    State.reset.wordAt .status 5 = 1 ∧ State.reset.wordAt .config 1 = 2000 ∧ State.reset.wordAt .validation 0 = 0 ∧
    State.reset.wordAt .cls 3 = 0x101 := by decide

/-! ### Witnesses: for each statement, states and operands that meet its hypotheses, clause by clause -/

/-- The board with a resolution in flight. -/
def resolving (action : Action) : State := { board with resolver.context := some (attempt 0x101 action) }

def halted : State := { inMode .run with gate.mode := .halt, gate.reason := .command }

def damaged : ResetRun := { source := .powerOn, linkLost := false }

theorem test_witness_StepRunsFrontCommand :
    ({ State.reset with pending := [.qackHigh] } : State).pending = [.qackHigh] ∧ State.reset.pending = [] := by decide

theorem test_witness_FramesPassDuringResetAndStopWithoutLock :
    (Instr.frameDuringReset [1]).arrivingWords = some [1] ∧
    ({ State.reset with control.lockLost := true } : State).control.lockLost = true ∧
    ({ State.reset with control.resetting := some damaged } : State).control.resetting ≠ none ∧
    State.reset.control.lockLost = false ∧ State.reset.control.rstnLow = false ∧ damaged.source = .powerOn := by decide

theorem test_witness_FramesNotActedOnPassOrAreMarked :
    State.reset.Listens ∧
    (Instr.abort { addressed [] with marks := 1 } (control 0)).directed =
      some (4, 0x04000000, { addressed [] with marks := 1 }) ∧
    ({ addressed [] with marks := 1 } : Envelope).marks.getLsbD 0 = true ∧
    (Instr.abort { addressed [] with dest := 15 } (control 0)).directed =
      some (4, 0x04000000, { addressed [] with dest := 15 }) ∧
    ({ addressed [] with dest := 15 } : Envelope).dest.toNat ≠ State.reset.ring.address.toNat ∧
    (Instr.abort { addressed [] with status := 1 } (control 0)).directed =
      some (4, 0x04000000, { addressed [] with status := 1 }) ∧
    ({ addressed [] with status := 1 } : Envelope).marks.getLsbD 0 = false ∧
    ({ addressed [] with status := 1 } : Envelope).status ≠ 0 := by decide

/-- A length of 17 with 17 words, and one word fewer than the length says. -/
theorem test_witness_BadLengthIsRefused :
    State.reset.Listens ∧ ¬ LengthAgrees (addressed (List.replicate 17 0)) ∧
    ¬ LengthAgrees { broadcast [] with length := 1 } ∧ (addressed []).marks.getLsbD 0 = false ∧
    (addressed (List.replicate 17 0)).dest.toNat = State.reset.ring.address.toNat ∧
    (Instr.abort { broadcast [] with length := 1 } (control 0)).directed =
      some (4, 0x04000000, { broadcast [] with length := 1 }) := by decide

theorem test_witness_DamagedFramesRaiseLinkCrc : State.reset.Listens := by decide

theorem test_witness_BroadcastFramesCountOrRefuse :
    State.reset.ActsOn (broadcast []) true ∧
    (Instr.abort (broadcast []) (control 0)).directed = some (4, 0x04000000, broadcast []) := by decide

theorem test_witness_AddressedFramesAnswerAndRefusalsChangeNothing :
    State.reset.ActsOn (addressed []) false ∧
    (Instr.abort (addressed []) (control 0)).directed = some (4, 0x04000000, addressed []) := by decide

/-- The last word of each topology space, with the extreme values that can be stored. -/
theorem test_witness_TopologyWritesStoreEveryWord :
    State.reset.ActsOn (addressed [0]) false ∧ State.reset.control.mode = .configure ∧ Fits 1024 1023 [0] ∧
    Fits 32 31 [0x12] ∧ IsRoleWord 0x12 ∧ Fits 8 7 [1] ∧ Fits 256 254 [63, 255] ∧ IsPinWord 63 ∧ IsPinWord 255 ∧
    Fits 128 125 [80, 111, 255] ∧ IsPortWord 80 ∧ IsPortWord 111 ∧ IsPortWord 255 := by decide

theorem test_witness_ClassAndConfigWritesClamp :
    State.reset.ActsOn (broadcast [0]) true ∧ State.reset.control.mode = .configure ∧ Fits 64 63 [0] ∧
    (inMode .lockedOut).ActsOn (broadcast [0]) true ∧ Fits 6 5 [0] ∧ ¬ Fits 6 6 [0] := by decide

theorem test_witness_WritesRefuseInOrder :
    (inMode .run).ActsOn (addressed [0]) false ∧ (inMode .run).control.mode ≠ .configure ∧
    State.reset.ActsOn (addressed [0]) false ∧ ¬ Fits 1024 1024 [0] ∧ ¬ Fits 64 64 [0] ∧ ¬ Fits 32 32 [0] ∧
    ¬ Fits 8 8 [0] ∧ ¬ Fits 256 256 [0] ∧ ¬ Fits 128 128 [0] ∧ ¬ IsRoleWord 3 ∧ ¬ IsPinWord 64 ∧ ¬ IsPinWord 254 ∧
    ¬ IsPortWord 79 ∧ ¬ IsPortWord 112 ∧ 17 ≤ (17#8).toNat ∧ 10 ≤ (10#8).toNat ∧ (16#8).toNat ≤ 16 := by decide

theorem test_witness_RouteStoreWritesStoreOrRefuse :
    (resolving .stage).ActsOn (addressed [0]) false ∧ Fits 256 255 [0] ∧ IsDirWord 0x400000 ∧ ¬ IsDirWord 0x410000 ∧
    ¬ Fits 256 256 [0] ∧ Fits 2048 2047 [0] ∧ ¬ Fits 2048 2048 [0] ∧ IsEntryWord 0x001F0000 ∧ ¬ IsEntryWord 0x00100000 ∧
    IsEntryWord 0x800003FF ∧ ¬ IsEntryWord 0x80000400 := by decide
theorem test_witness_touched : (resolving .stage).TouchesDir 30 1 ∧ (resolving .stage).TouchesRun 203 1 :=
  ⟨⟨attempt 0x101 .stage, ⟨30, 200, 4⟩, rfl, rfl, by decide, by decide⟩,
    ⟨attempt 0x101 .stage, ⟨30, 200, 4⟩, 203, rfl, rfl, by decide, by decide, by decide, by decide⟩⟩
theorem test_witness_untouched : ¬ (resolving .stage).TouchesDir 31 1 ∧ ¬ (resolving .stage).TouchesRun 204 1 := by
  constructor
  · rintro ⟨c, u, hc, hu, h1, h2⟩
    cases hc
    cases hu
    simp [stepOf] at h1
  · rintro ⟨c, u, i, hc, hu, h1, h2, h3, h4⟩
    cases hc
    cases hu
    have : i < 204 := h4
    omega

/-- Index 2047 is a health word, which 3 does not encode; index 2046 is a count word. -/
theorem test_witness_WearWritesStoreOrRefuse :
    State.reset.ActsOn (addressed [7, 2]) false ∧ Fits 2048 2046 [7, 2] ∧ ¬ Fits 2048 2047 [7, 2] ∧
    (∀ k (h : k < [(7 : Word), 2].length), (2046 + k) % 2 = 1 → [(7 : Word), 2][k].extractLsb' 0 2 ≠ 3) ∧
    ¬ (∀ k (h : k < [(3 : Word)].length), (2047 + k) % 2 = 1 → [(3 : Word)][k].extractLsb' 0 2 ≠ 3) ∧
    (inMode .lockedOut).control.mode = .lockedOut ∧ closing.control.mode = .run ∧ closing.engine.phase ≠ .idle ∧
    board.engine.phase = .idle ∧ board.resolver.context = none ∧ (resolving .check).resolver.context ≠ none := by decide

/-- A start at the last word of STATUS, and one at its size, from the cursor alone. -/
theorem test_witness_ReadsFillFromTheSpace :
    State.reset.ActsOn (addressed [0]) false ∧ Space.ofCode 10 = some .status ∧ (readAt 8 false).start.toNat < Space.status.size ∧
    ({ State.reset with ring.cursor := some { space := .status, next := 9 } } : State).ring.cursor =
      some { space := .status, next := 9 } ∧ 9 ≤ Space.status.size := by decide

/-- Two words of HOLDINGS, the first of them taken, with an event of the gate, a frame, and an empty queue to come. -/
def filling : State :=
  { board with
    ring.reading := some
      { env := addressed [0, 0], arg := readArgWord (readAt 0 false) 11, space := .holdings, start := 0, goal := 2,
        filled := [1] } }

theorem test_witness_ReadsFillWhileEventsFall :
    (∃ r, filling.ring.reading = some r ∧ r.filled.length < r.goal) ∧ Instr.arrivingWords .symbolLockLost = none ∧
    (∃ u, exec .symbolLockLost { filling with ring.reading := none } = .next u) ∧
    Instr.arrivingWords (.shortFrame [1]) = some [1] ∧ filling.pending = [] :=
  ⟨⟨_, rfl, by decide⟩, rfl, ⟨_, rfl⟩, rfl, rfl⟩

/-- A frame that arrives finds the READ finished, and leaves after it. -/
theorem test_frame_finishes_a_read : (exec (.shortFrame [1]) filling).rec (fun t => t.ring.sent.length) (fun _ => 0)
    (fun _ => 0) = 2 := by decide +kernel

theorem test_witness_ReadsRefuseInOrder :
    State.reset.ActsOn (addressed [0]) false ∧ State.reset.ActsOn (broadcast [0]) true ∧ 17 ≤ (17#8).toNat ∧
    Space.ofCode 10 = some .status ∧ Space.status.size ≤ (readAt 9 false).start.toNat ∧
    State.reset.ring.cursor = none := by decide

theorem test_witness_NoticesReadsRemoveWhatTheyReturn :
    State.reset.ActsOn (addressed [0]) false ∧ ({ relay := 1023, kind := .retire, count := 4294967295 } : Notice).relay < 1024 ∧
    ({ relay := 1023, kind := .retire, count := 4294967295 } : Notice).word = 0xFFFFFFFF := by decide

/-- Canonical tables, for a state whose tables are given. -/
theorem canonical_of (s : State)
    (h : (Table.wf RelayEntry.absent s.topology.relayMap ∧ Table.wf ClassEntry.initial s.topology.classes ∧
      Table.wf PortEntry.initial s.topology.ports ∧ Table.wf false s.topology.sites ∧
      Table.wf none s.topology.pinMap ∧ Table.wf none s.topology.portMap ∧
      Table.wf DirEntry.initial s.store.directory ∧ Table.wf Entry.initial s.store.pool) ∧
      Table.wf none s.engine.holdings ∧ Table.wf none s.engine.baseMap ∧ Table.wf Contact.opened s.engine.actual ∧
      Table.wf 0 s.coil.images ∧ Table.wf Exchange.idle s.coil.exchanges ∧
      Table.wf WearRecord.initial s.wear.records)
    (hb : ∀ ctx, s.resolver.context = some ctx → Table.wf none ctx.base ∧ Table.wf none ctx.target) : s.Canonical :=
  { relayMap := h.1.1, classes := h.1.2.1, ports := h.1.2.2.1, sites := h.1.2.2.2.1, pinMap := h.1.2.2.2.2.1,
    portMap := h.1.2.2.2.2.2.1, directory := h.1.2.2.2.2.2.2.1, pool := h.1.2.2.2.2.2.2.2, holdings := h.2.1,
    baseMap := h.2.2.1, actual := h.2.2.2.1, images := h.2.2.2.2.1, exchanges := h.2.2.2.2.2.1,
    wear := h.2.2.2.2.2.2, base := fun c h => (hb c h).1, target := fun c h => (hb c h).2 }

theorem board_canonical : board.Canonical := canonical_of _ (by decide) (fun _ h => by cases h)

/-- What holds of every listed relay that is present holds of every present relay. -/
theorem present_listed (s : State) (h : s.Canonical) (p : Nat → RelayEntry → Prop)
    (hp : ∀ e ∈ s.topology.relayMap, p e.1 e.2) (r : Nat) (hr : (s.relay r).present = true) : p r (s.relay r) := by
  have : s.relay r ≠ RelayEntry.absent := by intro h; rw [h] at hr; cases hr
  exact hp (r, s.relay r) ((Laws.table_mem_iff_get _ _ h.relayMap r _).mpr ⟨this, rfl⟩)

theorem test_witness_ValidationNamesTheFirstFailure : (firstBoard 1000 false 1).Canonical :=
  canonical_of _ (by decide) (fun _ h => by cases h)

/-- Each stage fails at the boundary values of its fields: node 112, operate 0, warn above retire, guard at port 24, and
an alias of a lower entry. -/
theorem test_witness_validation_clauses :
    (let s : State := { State.reset with topology.relayMap := [(0, joining 111 112 0)] };
      111 < (s.relay 0).b.toNat ∧ s.validate = { outcome := .badEndpoints, index := 0, related := 0 }) ∧
    (let s : State := { State.reset with topology.classes := [(15, { ClassEntry.initial with warn := 2 })] };
      s.validate = { outcome := .classOrder, index := 15, related := 0 }) ∧
    (let s : State := { State.reset with topology.ports := [(24, { role := .force, guarded := true })] };
      s.validate = { outcome := .badGuard, index := 24, related := 104 }) := by decide

/-- The board of section 3.8 in CONFIGURE, before its first step. -/
def loaded : State :=
  { board with control.mode := .configure, engine.holdings := [], engine.actual := [], engine.current := 0,
               engine.lastCompleted := 0 }

theorem loaded_canonical : loaded.Canonical := canonical_of _ (by decide) (fun _ h => by cases h)

theorem tables_valid (s : State) (h : s.Canonical)
    (h1 : ∀ e ∈ s.topology.relayMap, e.2.a.toNat ≤ 111 ∧ e.2.b.toNat ≤ 111 ∧ e.2.a ≠ e.2.b ∧
      (s.topology.classes.get .initial e.2.cls.toNat).operate ≠ 0)
    (h2 : ∀ c ∈ List.range 16, (s.topology.classes.get .initial c).warn.toNat ≤ (s.topology.classes.get .initial c).retire.toNat)
    (h3 : ∀ i ∈ List.range 32, (s.port i).guarded = true → (s.port i).role = .force ∧ i < 24)
    (h4 : ∀ x ∈ s.topology.pinMap, ∀ y ∈ s.topology.pinMap, x.1 < y.1 → x.2 ≠ none → y.2 ≠ x.2) : s.TablesValid := by
  constructor
  · exact present_listed s h (fun _ e => e.a.toNat ≤ 111 ∧ e.b.toNat ≤ 111 ∧ e.a ≠ e.b ∧
      (s.topology.classes.get .initial e.cls.toNat).operate ≠ 0) h1
  · exact fun c hc => h2 c (List.mem_range.mpr hc)
  · exact fun i hi => h3 i (List.mem_range.mpr hi)
  · intro i j p hij hp hq
    have hx := (Laws.table_mem_iff_get _ _ h.pinMap i (some p)).mpr ⟨by simp, hp⟩
    have hy := (Laws.table_mem_iff_get _ _ h.pinMap j (some p)).mpr ⟨by simp, hq⟩
    exact h4 _ hx _ hy hij (by simp) rfl

theorem loaded_valid : loaded.TablesValid :=
  tables_valid _ loaded_canonical (by decide) (by decide) (by decide) (by decide)
theorem board_valid : board.TablesValid :=
  tables_valid _ board_canonical (by decide) (by decide) (by decide) (by decide)

theorem test_witness_EnterRunNeedsValidTables :
    loaded.Canonical ∧ loaded.ActsOn (addressed []) false ∧ loaded.control.mode = .configure ∧ loaded.TablesValid ∧
    (firstBoard 1000 true 1).Canonical ∧ (firstBoard 1000 true 1).ActsOn (addressed []) false ∧
    ¬ (firstBoard 1000 true 1).TablesValid :=
  ⟨loaded_canonical, by decide, by decide, loaded_valid, canonical_of _ (by decide) (fun _ h => by cases h), by decide,
    fun h => absurd (h.ports 24 (by decide) (by decide)).1 (by decide)⟩

theorem test_witness_EnterConfigureNeedsAnEmptyBoard :
    board.Canonical ∧ board.ActsOn (addressed []) false ∧ board.control.mode = .run ∧ board.resolver.context = none ∧
    board.engine.phase = .idle ∧ ownerOf board.engine.holdings 141 ≠ none ∧
    (∀ r, ownerOf (inMode .run).engine.holdings r = none) ∧ (inMode .run).gate.slot = none ∧
    (inMode .run).Canonical :=
  ⟨board_canonical, by decide, by decide, by decide, by decide, by decide, fun _ => rfl, rfl,
    canonical_of _ (by decide) (fun _ h => by cases h)⟩

/-- The plan of the worked resolution, bound or not. -/
def worked (bound : Bool) : Plan :=
  { routeSet := 30, action := .stage, stop := false, baseNumber := 41, opens := [7, 141],
    closes := [(4, .site 0), (24, .site 0), (25, .site 0), (140, .common)], reassigned := [], waveLimit := 2,
    openWaves := 1, closeWaves := 2, guarded := 1, duration := 2530, bound := bound }

def staged : State := { board with gate.slot := some (worked false) }

theorem test_witness_TriggersFollowTheTable :
    State.reset.control.mode ≠ .run ∧ board.control.mode = .run ∧ board.gate.latch = false ∧
    board.engine.phase = .idle ∧ board.resolver.context = none ∧ board.gate.mode ≠ .halt ∧ board.gate.slot = none ∧
    halted.gate.mode = .halt ∧ (resolving .check).resolver.context ≠ none ∧ closing.engine.phase ≠ .idle ∧
    staged.control.mode = .run ∧ staged.gate.latch = false ∧ staged.engine.phase = .idle ∧
    staged.resolver.context = none ∧ staged.gate.mode ≠ .halt ∧ staged.gate.slot = some (worked false) ∧
    ({ inMode .run with gate.slot := some (worked false) } : State).gate.slot = some (worked false) ∧
    (worked false).baseNumber ≠ (inMode .run).engine.lastCompleted ∧
    (worked false).baseNumber = staged.engine.lastCompleted ∧
    (¬ ∃ x ∈ (worked false).closes, (staged.wearOf x.1).health = .retired) := by decide

/-- A halted gate with a plan waiting for its latched trigger. -/
def triggered (s : State) : State :=
  { s with gate := { slot := some (worked true), latch := true, mode := .halt, reason := .command } }

theorem test_witness_SetGateFollowsTheTableAndDiscardEmpties :
    (triggered board).ActsOn (addressed []) false ∧ (triggered board).control.mode ≠ .lockedOut ∧ (control 0).operand = 0 ∧
    (triggered board).gate.mode = .halt ∧ (triggered board).gate.latch = true ∧ (triggered board).engine.phase = .idle ∧
    (triggered board).resolver.context = none ∧ (triggered board).gate.slot = some (worked true) ∧
    (worked true).baseNumber = (triggered board).engine.lastCompleted ∧
    (¬ ∃ x ∈ (worked true).closes, ((triggered board).wearOf x.1).health = .retired) ∧
    (worked true).baseNumber ≠ (triggered halted).engine.lastCompleted ∧
    halted.ActsOn (addressed []) false ∧ halted.control.mode ≠ .lockedOut ∧ 3 < (control 4).operand.toNat ∧
    (control 3).operand = 3 ∧ halted.gate.mode = .halt ∧ board.gate.mode ≠ .halt ∧ halted.gate.latch = false ∧
    halted.engine.phase = .idle ∧ halted.resolver.context = none ∧ halted.gate.slot = none := by decide

theorem test_witness_AckAlertClearsNamedCauses : (inMode .lockedOut).ActsOn (broadcast []) true := by decide

/-- A state with neither plan nor fault, and states with one. -/
theorem test_witness_LinesAndRecordWordsShowTheState :
    board.gate.slot = none ∧ board.engine.fault.first = none ∧ staged.gate.slot = some (worked false) ∧
    (let f : FaultEntry :=
        { kind := .contact, phase := .closing, transition := .stepped, number := 1, relay := some 1023, chain := none,
          count := 1 };
      ({ board with engine.fault := { first := some f, additional := 255 } } : State).engine.fault.first = some f) := by
  decide

theorem test_witness_PollsKeepTheGreatestClaim :
    polled.Listens ∧ (addressed []).marks.getLsbD 0 = false ∧ LengthAgrees (addressed []) ∧
    LengthAgrees (addressed [0x80000144]) := by decide

theorem test_witness_AcceptedStepsFixTheirContext :
    board.ActsOn (addressed []) false ∧ board.control.mode = .run ∧ (stepOf 0x101 0).mode ≠ 3 ∧
    (stepOf 0x101 2).mode ≠ 3 ∧ board.resolver.context = none ∧ board.gate.slot = none := by decide

theorem test_witness_StepsAndOperationsRefuseInOrder :
    (inMode .lockedOut).ActsOn (addressed []) false ∧ (inMode .lockedOut).control.mode = .lockedOut ∧
    State.reset.ActsOn (addressed []) false ∧ State.reset.control.mode = .configure ∧
    (resolving .check).ActsOn (addressed []) false ∧ (resolving .check).resolver.context ≠ none ∧
    (stepOf 0x101 3).mode = 3 ∧ (stepOf 0x101 2).mode ≠ 3 ∧
    ({ board with gate.slot := some (worked true) } : State).gate.slot = some (worked true) ∧
    (worked true).bound = true := by decide

/-- The board with a resolution in flight and the latch full, with `slot` staged before it. -/
def latchedWhile (action : Action) (slot : Option Plan) : State :=
  { resolving action with gate.latch := true, gate.slot := slot }

/-- The second attempt ends OK with the latch full and with the engine busy. -/
theorem test_attempt_while_latched : (latchedWhile .apply none).resolve (attempt 0x101 .apply) =
    .ok { worked false with action := .apply } := by decide +kernel
theorem test_attempt_while_busy :
    ({ latchedWhile .apply none with engine.phase := .opening } : State).resolve (attempt 0x101 .apply) =
      .ok { worked false with action := .apply } := by decide +kernel
theorem test_check_while_latched : (latchedWhile .check none).resolve (attempt 0x101 .check) =
    .ok { worked false with action := .check } := by decide +kernel
theorem test_first_while_resolving :
    ({ board with resolver.context := some (attempt 0x103 .stage) } : State).resolve (attempt 0x103 .stage) =
      .error { Conflict.bare .short with node1 := some 80, node2 := some 81, net := some 0 } := by decide +kernel

/-- A plan placed, a plan left alone and no plan at all, with the latch empty and with it full, not stale and stale. -/
theorem test_witness_ResolutionsEndWithTheirRecord :
    (let s : State := { board with resolver.context := some (attempt 0x103 .stage) };
      (∃ c, s.resolve (attempt 0x103 .stage) = .error c) ∧ s.gate.latch = false) ∧
    (∃ p, (latchedWhile .check none).resolve (attempt 0x101 .check) = .ok p) ∧
    (latchedWhile .check none).resolver.context = some (attempt 0x101 .check) ∧
    (latchedWhile .check none).gate.latch = true ∧ (latchedWhile .check none).engine.phase = .idle ∧
    (latchedWhile .check none).gate.mode ≠ .halt ∧ (latchedWhile .check none).gate.slot = none ∧
    (latchedWhile .stage (some (worked true))).gate.latch = true ∧
    (worked true).baseNumber = (latchedWhile .stage none).engine.lastCompleted ∧
    (∀ x ∈ (worked true).closes, ((latchedWhile .stage none).wearOf x.1).health ≠ .retired) ∧
    ({ worked true with baseNumber := 40 } : Plan).baseNumber ≠ (latchedWhile .check none).engine.lastCompleted :=
  ⟨⟨⟨_, test_first_while_resolving⟩, rfl⟩, ⟨_, test_check_while_latched⟩, rfl, rfl, rfl, by decide,
    rfl, rfl, rfl, by decide, by decide⟩

/-- The four rows of R151: the engine free or busy, the latch empty or full; and a plan that is stale. -/
theorem test_witness_ApplyDeliversItsTriggerLast :
    (latchedWhile .apply none).resolve (attempt 0x101 .apply) = .ok { worked false with action := .apply } ∧
    ({ latchedWhile .apply none with engine.phase := .opening } : State).resolve (attempt 0x101 .apply) =
      .ok { worked false with action := .apply } ∧
    (resolving .apply).resolver.context = some (attempt 0x101 .apply) ∧ (attempt 0x101 .apply).action = .apply ∧
    (resolving .apply).control.mode = .run ∧ (resolving .apply).engine.phase = .idle ∧
    (resolving .apply).gate.mode ≠ .halt ∧ (resolving .apply).gate.latch = false ∧
    (latchedWhile .apply none).gate.latch = true ∧
    (worked false).baseNumber = (resolving .apply).engine.lastCompleted ∧
    (∀ x ∈ (worked false).closes, ((resolving .apply).wearOf x.1).health ≠ .retired) ∧
    (worked false).baseNumber ≠ ({ resolving .apply with engine.lastCompleted := 42 } : State).engine.lastCompleted :=
  ⟨test_attempt_while_latched, test_attempt_while_busy, rfl, rfl, rfl, rfl, by decide, rfl, rfl, rfl, by decide, by decide⟩

/-- The worked resolution of section 3.8, latched: a full latch starts the plan, and the APPLY's own trigger is latched
anew with the slot EMPTY. -/
theorem test_apply_over_a_full_latch :
    (exec .resolutionComplete (latchedWhile .apply none)).rec
      (fun t => (t.gate.latch, t.gate.slot, t.engine.phase, t.engine.current)) (fun _ => (false, none, .idle, 0))
      (fun _ => (false, none, .idle, 0)) = (true, none, .guarding, 42) := by decide +kernel

theorem test_witness_PairLookupTakesTheLowestRelay : board.Canonical ∧ board.pairLookup 80 64 = some 1 ∧
    board.pairLookup 0 80 = none := ⟨board_canonical, by decide, by decide⟩

theorem test_witness_ResolutionsApplyEntriesInOrder :
    Table.wf none (attempt 0x101 .stage).base ∧ (attempt 0x101 .stage).usable = true ∧
    ({ attempt 0x101 .stage with usable := false } : Resolution).usable = false ∧
    (∃ t, board.buildTarget (attempt 0x103 .stage) = .ok t ∧ board.netCheck t ≠ none) ∧
    (∃ t, board.buildTarget (attempt 0x101 .stage) = .ok t ∧ board.netCheck t = none) ∧
    ∃ c, ({ board with topology.pinMap := [] } : State).buildTarget (attempt 0x101 .stage) = .error c :=
  ⟨by decide, by decide, rfl, ⟨_, rfl, by decide +kernel⟩, ⟨_, rfl, by decide +kernel⟩, ⟨_, rfl⟩⟩

/-- The board with a pool of entries for SITE0 and COMMON, and a base that holds nothing. -/
def pooled : State :=
  { board with
    store.pool := [(1, .path 0 0 (.fixed 0)), (2, .path 0 0 (.fixed 1)), (3, .path 1 0 (.fixed 1)), (4, .path 5 0 .auto),
      (5, .path 1 0 .auto), (6, .path 1 1 .auto), (7, .path 0 1 .auto), (8, .direct 140), (9, .direct 139),
      (10, .direct 1)] }

def emptied : Resolution := { attempt 0x101 .stage with base := [] }

/-- One operand for each kind of entry, for each way it fails, and for both passes of the AUTO choice. -/
theorem test_witness_EntriesGiveTheirRelaysOrFail :
    Table.wf none [(1, some (Owner.site 0))] ∧
    (pooled.relay 139).present = false ∧ (pooled.relay 140).present = true ∧
    pooled.Admits emptied [] .common 140 ∧
    pooled.Bars emptied [] .common 1 { Conflict.bare .retired with relay := some 1 } ∧
    pooled.Bars emptied [(140, some (.site 0))] .common 140
      { Conflict.bare .overlap with relay := some 140, holder := some (.site 0) } ∧
    pooled.topology.pinMap.get none 5 = none ∧ pooled.topology.pinMap.get none 0 = some 0 ∧
    pooled.topology.portMap.get none 0 = some 0 ∧ pooled.pairLookup 0 65 = none ∧ pooled.pairLookup 1 65 = some 14 ∧
    pooled.pairLookup 65 80 = none ∧ pooled.pairLookup 0 64 = some 0 ∧ pooled.pairLookup 64 80 = some 1 ∧
    pooled.Admits emptied [] (.site 0) 0 ∧ pooled.Admits (attempt 0x101 .stage) [] (.site 0) 1 ∧
    pooled.Reuses emptied [(1, some (.site 0))] (.site 0) 1 80 0 4 1 ∧
    (∀ j x y, ¬ pooled.Reuses emptied [] (.site 0) 1 88 j x y) ∧
    pooled.TakesFresh emptied [] (.site 0) 1 88 1 14 15 ∧
    (∀ x y, ¬ pooled.TakesFresh emptied [] (.site 0) 1 88 0 x y) ∧
    ∀ j, j < 16 → ∀ x y, ¬ pooled.TakesFresh emptied [] (.site 0) 0 88 j x y := by
  have none0 : ∀ j, j < 16 → pooled.pairLookup 0 (64 + j) = none ∨ pooled.pairLookup (64 + j) 88 = none := by decide
  refine ⟨by decide, by decide, by decide, ⟨by unfold State.NotBarred; decide, .inl rfl⟩,
    .inl ⟨by unfold State.NotBarred; decide, rfl⟩,
    .inr ⟨by unfold State.NotBarred; decide, .site 0, by decide, by decide, rfl⟩, by decide, by decide, by decide,
    by decide, by decide, by decide, by decide, by decide, ⟨by unfold State.NotBarred; decide, .inl rfl⟩,
    ⟨by unfold State.NotBarred; decide, .inl rfl⟩,
    ⟨by decide, by decide, by decide, by unfold State.NotBarred; decide, .inl rfl⟩,
    fun j x y h => absurd h.2.1 (by simp [ownerOf]),
    ⟨by decide, by decide, fun r h => absurd rfl h, by unfold State.NotBarred; decide, by unfold State.NotBarred; decide⟩,
    fun x y h => absurd (h.2.1.symm.trans (by decide : pooled.pairLookup 64 88 = none)) (by simp), fun j hj x y h => ?_⟩
  rcases none0 j hj with h' | h'
  · exact absurd (h.1.symm.trans h') (by simp)
  · exact absurd (h.2.1.symm.trans h') (by simp)

theorem test_witness_DeltaSortsEveryRelay :
    Table.wf none board.engine.holdings ∧ Table.wf none [(0, some Owner.common), (1023, some Owner.common)] := by decide

theorem test_witness_ResolutionRespectsOwnersModesAndRetirement :
    board.Canonical ∧ Table.wf none (attempt 0x101 .stage).base ∧ (attempt 0x101 .stage).target =
      startingTarget (attempt 0x101 .stage).mode (attempt 0x101 .stage).base (attempt 0x101 .stage).effective ∧
    (∃ p, board.resolve (attempt 0x101 .stage) = .ok p) ∧
    (let ctx := board.contextFor (stepOf 0x101 2) .clear .stage;
      ctx.mode = .clear ∧ ctx.inUse = none ∧ (board.resolve ctx).isOk = true) ∧
    (let ctx := board.contextFor (stepOf 0x100 1) .add .stage; ctx.mode = .add ∧ (board.resolve ctx).isOk = true) :=
  ⟨board_canonical, by decide, rfl, ⟨_, test_second_attempt⟩, by decide +kernel, by decide +kernel⟩

theorem board_present : ∀ r, ownerOf board.engine.holdings r ≠ none → (board.relay r).present = true := by
  intro r hr
  have h := (Laws.table_mem_iff_get _ _ board_canonical.holdings r _).mpr ⟨hr, rfl⟩
  have hall : ∀ e ∈ board.engine.holdings, (board.relay e.1).present = true := by decide
  exact hall _ h

theorem board_nodes : board.NodesValid board.engine.holdings := by
  intro r hr
  have := board_valid.relays r (board_present r hr)
  exact ⟨this.1, this.2.1⟩

theorem test_witness_NetCheckPassesExactlySoundNets :
    Table.wf none board.engine.holdings ∧ board.NodesValid board.engine.holdings ∧
    Table.wf none [(12, some Owner.common), (13, some .common), (14, some .common)] ∧
    board.NodesValid [(12, some .common), (13, some .common), (14, some .common)] ∧
    board.netCheck [(12, some .common), (13, some .common), (14, some .common)] =
      some { Conflict.bare .crossSite with node1 := some 1, node2 := some 32, net := some 1 } := by
  refine ⟨by decide, board_nodes, by decide, fun r hr => ?_, by decide +kernel⟩
  by_cases h1 : r = 12
  · subst h1; decide
  by_cases h2 : r = 13
  · subst h2; decide
  by_cases h3 : r = 14
  · subst h3; decide
  exact absurd (by simp [ownerOf, Table.get, h1, h2, h3]) hr

theorem test_witness_PlansCarryTheBoardToSoundNets :
    board.Canonical ∧ board.TablesValid ∧ Table.wf none (attempt 0x101 .stage).base ∧ (attempt 0x101 .stage).target =
      startingTarget (attempt 0x101 .stage).mode (attempt 0x101 .stage).base (attempt 0x101 .stage).effective ∧
    (∀ r, ownerOf (attempt 0x101 .stage).base r ≠ none → (board.relay r).present = true) ∧
    ∃ p, board.resolve (attempt 0x101 .stage) = .ok p :=
  ⟨board_canonical, board_valid, by decide, rfl, board_present, _, test_second_attempt⟩

theorem test_witness_GuardSetCoversSwitchedNets :
    Table.wf none board.engine.holdings ∧ Table.wf none ([] : Holdings) ∧ board.NodesValid board.engine.holdings ∧
    board.NodesValid [] := ⟨by decide, by decide, board_nodes, fun _ h => absurd rfl h⟩

/-- Every parameter and every index of the board lies in its range. -/
theorem board_inRange : board.InRange := by
  have hc : ∀ c, board.topology.classes.get .initial c = class1 ∨ board.topology.classes.get .initial c = class2 ∨
      board.topology.classes.get .initial c = .initial := by
    intro c
    simp only [board, inMode, Table.get]
    split
    · exact .inl rfl
    · split
      · exact .inr (.inl rfl)
      · exact .inr (.inr rfl)
  constructor
  · decide
  · decide
  · decide
  · intro c; rcases hc c with h | h | h <;> rw [h] <;> decide
  · intro c; rcases hc c with h | h | h <;> rw [h] <;> decide
  · intro c; rcases hc c with h | h | h <;> rw [h] <;> decide
  · intro i
    simp only [board, inMode, Table.get]
    split <;> decide
  · decide
  · decide
  · decide
  · decide
  · decide
  · decide
  · intro w h; cases h
  · intro t h; cases h
  · intro p h; cases h
  · intro c h; cases h

theorem test_witness_PlansCutWavesAndSumTheirTimes :
    Table.wf none (attempt 0x101 .stage).base ∧ (∀ r, 1024 ≤ r → ownerOf (attempt 0x101 .stage).base r = none) ∧
    1 ≤ (attempt 0x101 .stage).waveLimit ∧ board.InRange := by
  refine ⟨by decide, ?_, by decide, board_inRange⟩
  intro r hr
  by_contra h
  have hm := (Laws.table_mem_iff_get _ _ board_canonical.holdings r _).mpr ⟨h, rfl⟩
  have hall : ∀ e ∈ board.engine.holdings, e.1 < 1024 := by decide
  exact absurd (hall _ hm) (by omega)

theorem test_witness_DeratedTimesRoundUp :
    class1.ratedLife ≠ 0 ∧ class1.derate.toNat ≤ 100 ∧ 2 * (class1.ratedLife.toNat * 1000) ≤ 4294967295 ∧
    ({ class1 with derate := 100 } : ClassEntry).derate.toNat ≤ 100 ∧ class1.operate ≠ 0 := by decide

/-- A list with one place left, and a full one. -/
theorem test_witness_ConfirmationsCountWearAndNotify :
    ({ worn with wear.notices := List.replicate 15 { relay := 0, kind := .warn, count := 0 } } : State).wear.notices.length ≤ 16 ∧
    ((({ worn with wear.notices := List.replicate 15 { relay := 0, kind := .warn, count := 0 } } : State).confirm false
      900).isRaised .noticeFull = true) ∧ (worn.classOf 900).ratedLife ≠ 0 ∧ (worn.classOf 900).warn ≠ 0 := by decide

/-- The transition of `closing` with other lists, guard set or gate. -/
def stepped (guarded : BitVec 24) (stop : Bool) : Transition :=
  { kind := .stepped, number := 1, waveLimit := 4, guarded := guarded, stop := stop, hot := false }

def finishing (stop : Bool) : State :=
  { closing with engine.pendingClose := [], engine.transition := some (stepped 0 stop) }

theorem test_witness_PhasesFollowTheTable :
    ({ closing with engine.transition := some (stepped 1 false) } : State).engine.transition = some (stepped 1 false) ∧
    (stepped 1 false).guarded ≠ 0 ∧ closing.engine.transition = some (stepped 0 false) ∧
    (stepped 0 false).guarded = 0 ∧ closing.engine.pendingOpen = [] ∧ closing.engine.pendingClose ≠ [] ∧
    (finishing true).engine.pendingClose = [] ∧ (finishing true).gate.mode = .normal ∧
    (finishing false).gate.latch = false ∧ (finishing false).resolver.context = none ∧
    (finishing false).gate.slot = none := by decide

theorem test_witness_WavesTakeTheFrontOfTheirList : closing.Canonical := canonical_of _ (by decide) (fun _ h => by cases h)

/-- A guard wait of the board's plan. -/
def guarding (policy : GuardPolicy) : State :=
  { board with
    engine.phase := .guarding, engine.current := 42, engine.quiet := 1,
    engine.transition := some { stepped 1 false with number := 42 },
    engine.guardWait := some { timeout := 2000, policy := policy } }

theorem test_witness_GuardWaitsEndByQackTimeoutOrPolicy :
    (guarding .abort).engine.phase = .guarding ∧
    (guarding .abort).engine.transition = some { stepped 1 false with number := 42 } ∧
    (guarding .abort).engine.guardWait = some { timeout := 2000, policy := .abort } ∧
    (guarding .proceed).engine.guardWait = some { timeout := 2000, policy := .proceed } ∧
    (stepped 1 false).kind ≠ .safeOpen := by decide

theorem test_witness_WaveEndsSuspendLockOutOrGoOn :
    closing.engine.transition = some (stepped 0 false) ∧ (stepped 0 false).kind ≠ .safeOpen ∧
    ({ stepped 0 false with kind := .safeOpen } : Transition).kind = .safeOpen ∧
    ({ closing with engine.abortNoted := true } : State).engine.abortNoted = true ∧
    closing.engine.abortNoted = false ∧ closing.engine.phase = .closing := by decide

/-- The wave of section 5.6 with every relay at one status and the wave at one stage. -/
def waveAt (st : RelayStatus) (stage : WaveStage) : Wave :=
  { close := true, time := 1500, stage := stage, failed := false,
    relays :=
      [{ relay := 131, mode := .timed, senseTimeout := 0, status := st, spent := false },
        { relay := 140, mode := .sensed, senseTimeout := 60, status := st, spent := false },
        { relay := 300, mode := .sensed, senseTimeout := 100, status := st, spent := false },
        { relay := 310, mode := .timed, senseTimeout := 0, status := st, spent := false }] }

def inWave (w : Wave) (c1 c2 : Exchange) : State :=
  { shifting with coil.wave := some w, coil.exchanges := [(1, c1), (2, c2)] }

/-- Chain 1 latches while chain 2 is still WRITING, and as the last chain. -/
theorem test_witness_EchoesLatchOrRetry :
    shifting.exchange (1 : Fin 8) = .writing 1 .shifting ∧
    (let s := inWave (waveAt .writing .writing) (.writing 2 .echoWait) (.writing 3 .shifting);
      s.exchange (1 : Fin 8) = .writing 2 .echoWait ∧ s.coil.wave = some (waveAt .writing .writing) ∧
      2 ∈ (waveAt .writing .writing).chains ∧ s.exchange 2 = .writing 3 .shifting) ∧
    (let s := inWave (waveAt .writing .writing) (.writing 3 .echoWait) .latched;
      s.exchange (1 : Fin 8) = .writing 3 .echoWait ∧ s.exchange 2 = .latched ∧
      (1 : Fin 8).val ∈ (waveAt .writing .writing).chains ∧ 0 < (waveAt .writing .writing).time ∧
      ({ waveAt .writing .writing with time := 0 } : Wave).time = 0) ∧
    (inWave (waveAt .sensing (.sensing 100 false)) (.sensing 2 .echoWait) .done).exchange (1 : Fin 8) =
      .sensing 2 .echoWait := by decide

theorem test_witness_ThirdFailuresFailTheChain :
    Ascending ((waveAt .writing .writing).relays.map WaveRelay.relay) ∧
    (let s := inWave (waveAt .writing .writing) (.writing 3 .echoWait) .failed;
      s.exchange (1 : Fin 8) = .writing 3 .echoWait ∧ s.engine.transition = some (stepped 0 false) ∧
      s.exchange 2 = .failed ∧ (0 : Image) ≠ s.coil.images.get 0 (1 : Fin 8).val) ∧
    (let s := inWave (waveAt .writing .writing) (.writing 3 .echoWait) .latched;
      s.exchange (1 : Fin 8) = .writing 3 .echoWait ∧ 2 ∈ (waveAt .writing .writing).chains ∧ s.exchange 2 = .latched) ∧
    (let s := inWave (waveAt .writing .writing) (.writing 3 .echoWait) (.writing 1 .shifting);
      s.exchange (1 : Fin 8) = .writing 3 .echoWait ∧ s.exchange 2 = .writing 1 .shifting) ∧
    (let s := inWave (waveAt .sensing (.sensing 100 false)) (.sensing 3 .echoWait) (.sensing 1 .shifting);
      s.exchange (1 : Fin 8) = .sensing 3 .echoWait ∧ s.exchange 2 = .sensing 1 .shifting) ∧
    (waveAt .sensing (.sensing 100 false)).stage = .sensing 100 false ∧
    (let s := inWave (waveAt .sensing (.sensing 100 true)) (.sensing 3 .echoWait) .done;
      s.exchange (1 : Fin 8) = .sensing 3 .echoWait ∧ s.exchange 2 = .done) ∧
    (waveAt .sensing (.sensing 100 true)).stage = .sensing 100 true := by decide

theorem test_witness_TimedWaitsConfirmTimedRelays :
    let w := waveAt .latched .timedWait
    let s := inWave w .latched .latched
    s.coil.wave = some w ∧ w.stage = .timedWait ∧ s.engine.transition = some (stepped 0 false) ∧
    Ascending (w.relays.map WaveRelay.relay) ∧
    (∀ x ∈ w.relays, x.relay < 1024 ∧ (x.status = .latched ↔ s.exchange (x.relay / 128) = .latched) ∧
      (x.status = .latched ∨ x.status = .chainFailed)) ∧ s.gate.latch = false := by decide

/-- The deadline of section 5.6: the larger of 60 and 100. -/
theorem test_witness_largest_timeout : LargestTimeout (waveAt .sensing (.sensing 100 false)).relays 100 :=
  ⟨by decide, by decide⟩

/-- The last clause of the timed wait: one TIMED relay, alone on its list. -/
theorem test_witness_last_timed_wait :
    let w : Wave := { waveAt .latched .timedWait with relays := [{ relay := 131, mode := .timed, senseTimeout := 0, status := .latched, spent := false }] }
    let s : State := { inWave w .latched .idle with engine.pendingClose := [131], gate.mode := .free }
    (∀ x ∈ w.relays, x.status = .latched ∧ x.mode = .timed) ∧ w.failed = false ∧ s.engine.abortNoted = false ∧
    s.engine.pendingOpen = [] ∧ s.engine.pendingClose = w.relays.map WaveRelay.relay ∧ s.gate.mode = .free := by decide

/-- A timed wait that ends its wave after a chain failure: no relay is SENSING once chain 1's are confirmed. -/
theorem test_witness_failed_timed_wait :
    let w : Wave :=
      { waveAt .latched .timedWait with
        failed := true,
        relays := [{ relay := 131, mode := .timed, senseTimeout := 0, status := .latched, spent := false },
          { relay := 300, mode := .sensed, senseTimeout := 100, status := .chainFailed, spent := false }] }
    let s := inWave w .latched .failed
    Ascending (w.relays.map WaveRelay.relay) ∧
    (∀ x ∈ w.relays, x.relay < 1024 ∧ (x.status = .latched ↔ s.exchange (x.relay / 128) = .latched) ∧
      (x.status = .latched ∨ x.status = .chainFailed)) ∧
    ∀ x ∈ w.relays, (if x.status = .latched then
      { x with status := if x.mode = .timed then .confirmed else .sensing } else x).status ≠ .sensing := by decide

theorem test_witness_SenseEchoesConfirmMatchingRelays :
    let w := waveAt .sensing (.sensing 100 false)
    let s := inWave w (.sensing 1 .echoWait) .senseInterval
    s.coil.wave = some w ∧ w.stage = .sensing 100 false ∧ s.exchange (1 : Fin 8) = .sensing 1 .echoWait ∧
    Ascending (w.relays.map WaveRelay.relay) ∧ s.exchange (2 : Fin 8) = .senseInterval ∧
    (waveAt .sensing (.sensing 100 true)).stage = .sensing 100 true ∧
    (let r := inWave (waveAt .sensing (.sensing 100 true)) (.sensing 1 .echoWait) (.sensing 2 .shifting);
      2 ∈ w.chains ∧ r.exchange (1 : Fin 8) = .sensing 1 .echoWait ∧ r.exchange 2 = .sensing 2 .shifting) := by decide

/-- The largest timeout that a chain's matching echo leaves: 100 while relay 300 is SENSING, and 0 for relays of
timeout 0 alone, of which a mismatching one is spent by its read. -/
theorem test_witness_largest_timeout_left :
    LargestTimeout ((waveAt .sensing (.sensing 100 false)).sensed 1 0) 100 ∧
    (let w : Wave :=
        { waveAt .sensing (.sensing 100 false) with
          relays := [{ relay := 140, mode := .sensed, senseTimeout := 0, status := .sensing, spent := false }] };
      LargestTimeout (w.sensed 1 0) 0 ∧ (w.sensed 1 0).map WaveRelay.spent = [true]) :=
  ⟨⟨by decide, by decide⟩, ⟨by decide, by decide⟩, by decide⟩

theorem test_witness_SenseDeadlinesFailUnconfirmedRelays :
    let w := waveAt .sensing (.sensing 100 false)
    (inWave w (.sensing 1 .echoWait) .senseInterval).coil.wave = some w ∧ w.stage = .sensing 100 false ∧
    Ascending (w.relays.map WaveRelay.relay) ∧ 1 ∈ w.chains ∧
    (inWave w (.sensing 1 .echoWait) .senseInterval).exchange 1 = .sensing 1 .echoWait ∧
    (inWave w .senseInterval .done).exchange 1 = .senseInterval ∧ (inWave w .senseInterval .done).exchange 2 = .done := by
  decide

theorem test_witness_EventsWithoutACauseChangeNothing :
    State.reset.coil.wave = none ∧ State.reset.exchange (1 : Fin 8) = .idle ∧ State.reset.engine.phase ≠ .guarding ∧
    State.reset.resolver.context = none ∧ State.reset.control.resetting = none ∧
    State.reset.control.linkTimer = false := by decide

/-- The board stopped short of its plan's opens. -/
def suspended (kind : TransitionKind) : State :=
  { board with
    engine.phase := .suspended, engine.current := 42, engine.suspension := .aborted,
    engine.suspendedPhase := some .guard,
    engine.transition := some { stepped 1 false with kind := kind, number := 42 },
    engine.baseMap := board.engine.holdings, engine.holdings := plannedHoldings board.engine.holdings (worked true),
    engine.pendingOpen := [7, 141], engine.pendingClose := [4, 24, 25, 140] }

theorem test_witness_AbortStopsAndResumeContinues :
    (guarding .abort).ActsOn (addressed []) false ∧ (guarding .abort).control.mode ≠ .lockedOut ∧
    (guarding .abort).engine.phase = .guarding ∧ closing.engine.phase = .closing ∧ board.engine.phase = .idle ∧
    (suspended .stepped).ActsOn (addressed []) false ∧ (suspended .stepped).engine.phase = .suspended ∧
    (suspended .stepped).engine.transition = some { stepped 1 false with number := 42 } := by decide

theorem test_witness_RollbackReturnsToTheBase :
    (suspended .stepped).Canonical ∧ (suspended .stepped).ActsOn (addressed []) false ∧
    (suspended .stepped).control.mode ≠ .lockedOut ∧ (suspended .stepped).engine.phase = .suspended ∧
    (suspended .stepped).resolver.context = none ∧
    (suspended .rollback).engine.transition = some { stepped 1 false with kind := .rollback, number := 42 } :=
  ⟨canonical_of _ (by decide) (fun _ h => by cases h), by decide, by decide, by decide, by decide, by decide⟩

theorem test_witness_SafeOpenOpensEverything :
    board.Canonical ∧ board.ActsOn (addressed []) false ∧ board.control.mode = .run ∧ board.engine.phase = .idle ∧
    board.resolver.context = none ∧ (resolving .check).resolver.context ≠ none ∧ closing.engine.phase = .closing ∧
    State.reset.control.mode = .configure ∧ (suspended .stepped).engine.phase = .suspended :=
  ⟨board_canonical, by decide, by decide, by decide, by decide, by decide, by decide, by decide, by decide⟩

/-- A board with nothing closed and nothing guarded, a resolution in flight and a trigger latched (log 31). -/
def bare : State := { inMode .run with resolver.context := some (attempt 0x101 .check), gate.latch := true }

/-- The same, suspended in a STEPPED transition with nothing to go back to. -/
def bareSuspended : State :=
  { bare with
    engine.phase := .suspended, engine.current := 1, engine.transition := some (stepped 0 false),
    engine.suspension := .aborted, engine.suspendedPhase := some .opening }

theorem test_witness_empty_recovery :
    bare.Canonical ∧ bare.ActsOn (addressed []) false ∧ bare.control.mode = .run ∧ bare.engine.phase = .idle ∧
    bare.resolver.context = some (attempt 0x101 .check) ∧ bare.safeOpens = [] ∧ bare.allGuarded = 0 ∧
    bareSuspended.Canonical ∧ bareSuspended.ActsOn (addressed []) false ∧ bareSuspended.engine.phase = .suspended ∧
    bareSuspended.engine.transition = some (stepped 0 false) ∧ bareSuspended.rollbackOpens = [] ∧
    bareSuspended.rollbackCloses = [] ∧ bare.gate.latch = true ∧ bare.gate.mode ≠ .halt ∧ bare.gate.slot = none :=
  ⟨canonical_of _ (by decide) (fun _ h => by cases h; decide), by decide, by decide, by decide, rfl, by decide, by decide,
    canonical_of _ (by decide) (fun _ h => by cases h; decide), by decide, by decide, by decide, by decide, by decide,
    by decide, by decide, by decide⟩

/-- DONE, RESOLVE_FAIL and TRIG_EMPTY are pending, beside RESET, and the engine is IDLE with the latch empty. -/
theorem test_empty_safe_open_reexamines :
    bare.startSafeOpen.alerts.pending = 0x0813 ∧ bare.startSafeOpen.engine.phase = .idle ∧
    bare.startSafeOpen.gate.latch = false ∧ bare.startSafeOpen.resolver.context = none := by decide

theorem test_witness_ResetsEmptyTheBoard :
    board.control.resetting = none ∧ board.ActsOn (broadcast []) true ∧
    ({ board with control.linkTimer := true } : State).control.linkTimer = true ∧
    ({ board with control.resetting := some damaged } : State).control.resetting = some damaged := by decide

theorem test_witness_ResetsEndWithTheirRecord :
    ({ State.reset with control.resetting := some damaged } : State).control.resetting = some damaged ∧
    State.reset.control.rstnLow = false ∧ State.reset.control.lockLost = false ∧
    ({ source := .linkLoss, linkLost := false } : ResetRun).source = .linkLoss := by decide

theorem test_witness_ResetStateMeetsEveryInvariant :
    ∃ u v, board.control.rstnLow = false ∧ board.control.lockLost = false ∧ exec .powerOn board = .next u ∧
      exec (.resetEnd 0) u = .next v :=
  ⟨_, _, rfl, rfl, rfl, rfl⟩

/-- The board with a command waiting. -/
def waiting : State := { board with pending := [.symbolLockLost] }

theorem waiting_agrees : waiting.Agrees := by
  constructor
  · constructor
    · decide
    · exact fun _ => ⟨rfl, rfl, fun _ => rfl⟩
    · decide
    · intro t h; cases h
    · decide
    · decide
    · decide
    · decide
    · decide
    · decide
    · intro w h; cases h
    · exact fun _ _ => rfl
  · constructor
    · decide
    · decide
    · intro h; exact absurd rfl h
    · decide
    · decide
    · decide
    · decide
    · intro p h; cases h
    · decide

theorem test_witness_StepsKeepTablesCanonicalAndInRange :
    waiting.Canonical ∧ waiting.InRange ∧ ∃ t, step waiting = .next t :=
  ⟨canonical_of _ (by decide) (fun _ h => by cases h), ⟨board_inRange.1, board_inRange.2, board_inRange.3,
    board_inRange.4, board_inRange.5, board_inRange.6, board_inRange.7, board_inRange.8, board_inRange.9,
    board_inRange.10, board_inRange.11, board_inRange.12, board_inRange.13, nofun, nofun, nofun,
    nofun⟩, _, rfl⟩

theorem test_witness_StepsKeepTheBlocksInAgreement : waiting.Agrees ∧ ∃ t, step waiting = .next t :=
  ⟨waiting_agrees, _, rfl⟩

theorem test_witness_StepsKeepUnknownRelaysPendingAndHeldRelaysPresent :
    waiting.Canonical ∧ waiting.Agrees ∧ waiting.PendingAgrees ∧ waiting.HoldsPresent ∧ ∃ t, step waiting = .next t := by
  refine ⟨canonical_of _ (by decide) (fun _ h => by cases h), waiting_agrees, ?_, ?_, _, rfl⟩
  · constructor
    · intro r h
      have hm := (Laws.table_mem_iff_get _ _ board_canonical.actual r .unknown).mpr ⟨by decide, h⟩
      have hall : ∀ e ∈ board.engine.actual, e.2 ≠ .unknown := by decide
      exact absurd rfl (hall _ hm)
    · exact .nil
    · exact .nil
    · intro r h; cases h
    · intro w h; cases h
    · intro w h; cases h
    · intro p h; cases h
    · intro p h; cases h
    · intro p h; cases h
  · constructor
    · exact board_present
    · intro r h; exact absurd rfl h
    · intro c h; cases h
    · intro c h; cases h
    · intro p h; cases h

/-- A close wave of one TIMED relay at the end of its timed wait. -/
def lastWait : State :=
  { inMode .run with
    pending := [.timedWaitEnd],
    engine.phase := .closing, engine.current := 1, engine.transition := some (stepped 0 false),
    engine.holdings := [(131, some .common)], engine.pendingClose := [131],
    topology.relayMap := [(131, joining 0 64 1)], topology.classes := [(1, class1)],
    coil.wave := some
      { close := true, time := 1500, stage := .timedWait, failed := false,
        relays := [{ relay := 131, mode := .timed, senseTimeout := 0, status := .latched, spent := false }] },
    coil.exchanges := [(1, .latched)] }

/-- The same with a READ of the relay's ACTUAL word waiting for its first word. -/
def lastWaitFilling : State :=
  { lastWait with
    ring.reading := some
      { env := addressed [0], arg := readArgWord (readAt 131 false) 14, space := .actual, start := 131, goal := 1,
        filled := [] } }

theorem lastWait_agrees : lastWait.Agrees := by
  constructor
  · constructor
    · decide
    · exact fun h => absurd h (by decide)
    · decide
    · intro t h _; cases h; rfl
    · decide
    · decide
    · decide
    · decide
    · decide
    · decide
    · intro w h; cases h; decide
    · exact fun h => absurd h (by decide)
  · constructor
    · decide
    · decide
    · intro h; exact absurd rfl h
    · decide
    · decide
    · decide
    · decide
    · intro p h; cases h
    · decide

theorem lastWait_pending : lastWait.PendingAgrees := by
  constructor
  · intro r h; cases h
  · exact .nil
  · decide
  · intro r h; cases h
  · intro w h; cases h; decide
  · intro w h; cases h; decide
  · intro p h; cases h
  · intro p h; cases h
  · intro p h; cases h

/-- Words may be taken among the confirmations of this event, and among those of a sense echo. -/
theorem test_witness_reads_among_confirmations :
    (∃ r w, lastWaitFilling.ring.reading = some r ∧ r.filled.length < r.goal ∧ lastWaitFilling.coil.wave = some w ∧
      w.stage = .timedWait ∧ lastWaitFilling.Canonical ∧ lastWaitFilling.PendingAgrees) ∧
    (inWave (waveAt .sensing (.sensing 100 false)) (.sensing 1 .echoWait) .senseInterval).exchange (1 : Fin 8) =
      .sensing 1 .echoWait ∧
    (∀ w, filling.coil.wave = some w → w.stage ≠ .timedWait) ∧ (∀ w, filling.coil.wave = some w → 0 < w.time) :=
  ⟨⟨_, _, rfl, by decide, rfl, rfl, canonical_of _ (by decide) (fun _ h => by cases h),
    ⟨lastWait_pending.1, lastWait_pending.2, lastWait_pending.3, lastWait_pending.4, lastWait_pending.5,
      lastWait_pending.6, lastWait_pending.7, lastWait_pending.8, lastWait_pending.9⟩⟩, by decide,
    fun _ h => (by cases h), fun _ h => (by cases h)⟩

theorem lastWait_inRange : lastWait.InRange := by
  have hc : ∀ c, lastWait.topology.classes.get .initial c = class1 ∨ lastWait.topology.classes.get .initial c = .initial := by
    intro c
    simp only [lastWait, inMode, Table.get]
    split
    · exact .inl rfl
    · exact .inr rfl
  constructor
  · decide
  · decide
  · decide
  · intro c; rcases hc c with h | h <;> rw [h] <;> decide
  · intro c; rcases hc c with h | h <;> rw [h] <;> decide
  · intro c; rcases hc c with h | h <;> rw [h] <;> decide
  · intro i; exact Nat.zero_le _
  · decide
  · decide
  · decide
  · decide
  · decide
  · decide
  · intro w h; cases h; decide
  · intro t h; cases h; decide
  · intro p h; cases h
  · intro c h; cases h

/-- The wave of the last timed wait agrees with its chain. -/
theorem test_witness_StepsKeepTheWaveInAgreement :
    lastWait.Canonical ∧ lastWait.Agrees ∧ lastWait.PendingAgrees ∧ lastWait.InRange ∧ lastWait.WaveAgrees ∧
    ∃ t, step lastWait = .next t := by
  refine ⟨canonical_of _ (by decide) (fun _ h => by cases h), lastWait_agrees, lastWait_pending, lastWait_inRange, ?_, _, rfl⟩
  constructor
  · intro w h x hx
    cases h
    obtain rfl := List.mem_singleton.mp hx
    exact ⟨⟨nofun, fun ⟨_, _, h⟩ => absurd h (by simp [lastWait, State.exchange, Table.get])⟩, nofun⟩
  · intro w h; cases h; decide
  · intro w h x hx e
    cases h
    obtain rfl := List.mem_singleton.mp hx
    cases e
  · intro w h x hx e
    cases h
    obtain rfl := List.mem_singleton.mp hx
    cases e
  · intro w h; cases h; decide
  · intro w h
    cases h
    exact ⟨nofun, fun _ => by decide, nofun⟩
  · intro w h c hc
    cases h
    have : c ≠ 1 := fun e => hc _ (List.mem_singleton.mpr rfl) e.symm
    simp [lastWait, State.exchange, Table.get, this]

/-- A relay leaves OPEN here: relay 131 is confirmed CLOSED. The board at rest meets the second clause. -/
theorem test_witness_StepsKeepTheBoardAsHeld :
    (lastWait.Canonical ∧ lastWait.Agrees ∧ lastWait.PendingAgrees ∧ lastWait.engine.current ≠ 0xFFFFFFFF ∧
      lastWait.BoardAgrees ∧ ∃ t, step lastWait = .next t ∧ Table.get .opened lastWait.engine.actual 131 = .opened ∧
        Table.get .opened t.engine.actual 131 ≠ .opened) ∧
    waiting.Agrees ∧ waiting.BoardAgrees ∧ waiting.engine.phase = .idle ∧ waiting.engine.pendingOpen = [] := by
  refine ⟨⟨canonical_of _ (by decide) (fun _ h => by cases h), lastWait_agrees, lastWait_pending, by decide, ?_,
    _, rfl, rfl, by decide⟩, waiting_agrees, ?_, rfl, rfl⟩
  · constructor
    · intro r _ h
      have : r ≠ 131 := fun e => h (by subst e; decide)
      simp [lastWait, ownerOf, Table.get, this, inMode, State.reset, Engine.initial]
    · intro r h; cases h
    · intro r h
      have : r = 131 := by simpa [lastWait] using h
      subst this; decide
    · intro t _ _ h; exact absurd rfl h
    · intro h; exact absurd h (by decide)
    · intro t h; cases h; rfl
    · intro c h; cases h
    · intro p h; cases h
  · constructor
    · intro r _ _
      simp only [waiting, board, ownerOf, Table.get]
      repeat' split
      all_goals first | rfl | simp_all
    · intro r h; cases h
    · intro r h; cases h
    · intro t h; cases h
    · exact fun _ => rfl
    · intro t h; cases h
    · intro c h; cases h
    · intro p h; cases h

end Sys2Proof.Tests
end

section
/-! The delta of a resolution: which relays it opens, closes and reassigns (R51). -/

namespace Sys2Proof.Delta

open Sys2Proof.Machine Sys2Proof.Laws

/-- In a canonical holding table the listed pairs are the held relays with their owners. -/
theorem mem_holdings_iff {h : Holdings} (hwf : Table.wf none h) (r : Nat) (o : Owner) :
    (r, some o) ∈ h ↔ ownerOf h r = some o := by
  simp [table_mem_iff_get none h hwf, ownerOf]

theorem mem_openSet_iff {base : Holdings} (target : Holdings) (hwf : Table.wf none base) (r : Nat) :
    r ∈ openSet base target ↔ ownerOf base r ≠ none ∧ ownerOf target r = none := by
  calc r ∈ openSet base target
      ↔ ∃ o, (r, some o) ∈ base ∧ ownerOf target r = none := by
        simp only [openSet, List.mem_map, List.mem_filter, Bool.and_eq_true, Option.isSome_iff_exists,
          Option.isNone_iff_eq_none]
        constructor
        · rintro ⟨⟨_, _⟩, ⟨hmem, ⟨o, rfl⟩, hnone⟩, rfl⟩
          exact ⟨o, hmem, hnone⟩
        · rintro ⟨o, hmem, hnone⟩
          exact ⟨(r, some o), ⟨hmem, ⟨o, rfl⟩, hnone⟩, rfl⟩
    _ ↔ _ := by simp only [mem_holdings_iff hwf, exists_and_right, Option.ne_none_iff_exists']

theorem mem_ownedWhere_iff {target : Holdings} (hwf : Table.wf none target) (p : Nat → Owner → Bool) (r : Nat)
    (o : Owner) : (r, o) ∈ ownedWhere target p ↔ ownerOf target r = some o ∧ p r o = true := by
  calc (r, o) ∈ ownedWhere target p
      ↔ (r, some o) ∈ target ∧ p r o = true := by
        simp only [ownedWhere, List.mem_filterMap]
        constructor
        · rintro ⟨⟨k, _ | x⟩, hmem, hgives⟩
          · simp at hgives
          · obtain ⟨hp, rfl, rfl⟩ : p k x = true ∧ k = r ∧ x = o := by simpa using hgives
            exact ⟨hmem, hp⟩
        · rintro ⟨hmem, hp⟩
          exact ⟨(r, some o), hmem, by simp [hp]⟩
    _ ↔ _ := by rw [mem_holdings_iff hwf]

theorem mem_closeSet_iff (base : Holdings) {target : Holdings} (hwf : Table.wf none target) (r : Nat) (o : Owner) :
    (r, o) ∈ closeSet base target ↔ ownerOf base r = none ∧ ownerOf target r = some o := by
  rw [closeSet, mem_ownedWhere_iff hwf, Option.isNone_iff_eq_none, and_comm]

/-- The relays of C, without their owners. -/
theorem mem_closeSet_relays_iff (base : Holdings) {target : Holdings} (hwf : Table.wf none target) (r : Nat) :
    r ∈ (closeSet base target).map Prod.fst ↔ ownerOf base r = none ∧ ownerOf target r ≠ none := by
  simp [mem_closeSet_iff base hwf, Option.ne_none_iff_exists']

theorem mem_reassignedSet_iff (base : Holdings) {target : Holdings} (hwf : Table.wf none target) (r : Nat) (o : Owner) :
    (r, o) ∈ reassignedSet base target ↔ ownerOf target r = some o ∧ ∃ x, ownerOf base r = some x ∧ o ≠ x := by
  rw [reassignedSet, mem_ownedWhere_iff hwf]
  cases ownerOf base r with
  | none => simp
  | some x => simp [@eq_comm _ x o]

theorem ascending_openSet {base : Holdings} (target : Holdings) (hwf : Table.wf none base) :
    Ascending (openSet base target) :=
  List.pairwise_map.mpr (hwf.1.filter _)

theorem ownedWhere_relays_sublist (target : Holdings) (p : Nat → Owner → Bool) :
    ((ownedWhere target p).map Prod.fst).Sublist target.indices := by
  unfold ownedWhere Table.indices
  induction target with
  | nil => exact .slnil
  | cons e t ih =>
    obtain ⟨k, _ | x⟩ := e
    · simpa using ih.cons k
    · by_cases hp : p k x = true
      · simpa [hp] using ih
      · simpa [hp] using ih.cons k

theorem ascending_ownedWhere {target : Holdings} (hwf : Table.wf none target) (p : Nat → Owner → Bool) :
    Ascending ((ownedWhere target p).map Prod.fst) :=
  (List.pairwise_map.mpr hwf.1).sublist (ownedWhere_relays_sublist target p)

/-- No relay is both opened and closed, so that O and C together fit in the relay positions. -/
theorem openSet_closeSet_length_le {base target : Holdings} (hbase : Table.wf none base)
    (htarget : Table.wf none target) (n : Nat) (hn : ∀ r, n ≤ r → ownerOf base r = none ∧ ownerOf target r = none) :
    (openSet base target).length + (closeSet base target).length ≤ n := by
  have apart : (openSet base target).Disjoint ((closeSet base target).map Prod.fst) := by
    intro r ho hc
    exact ((mem_openSet_iff target hbase r).mp ho).1 ((mem_closeSet_relays_iff base htarget r).mp hc).1
  have once : (openSet base target ++ (closeSet base target).map Prod.fst).Nodup :=
    (ascending_openSet target hbase).nodup.append (ascending_ownedWhere htarget _).nodup apart
  have inRange : openSet base target ++ (closeSet base target).map Prod.fst ⊆ List.range n := by
    intro r hr
    rw [List.mem_range]
    by_contra hge
    obtain ⟨hb, ht⟩ := hn r (Nat.le_of_not_lt hge)
    rcases List.mem_append.mp hr with ho | hc
    · exact ((mem_openSet_iff target hbase r).mp ho).1 hb
    · exact ((mem_closeSet_relays_iff base htarget r).mp hc).2 ht
  simpa using (once.subperm inRange).length_le

/-- Settles O33: each list's members are read off the canonical tables, whose order the lists inherit. -/
theorem deltaSortsEveryRelay : Obligations.DeltaSortsEveryRelay := fun base target hbase htarget =>
  ⟨mem_openSet_iff target hbase, mem_closeSet_iff base htarget, mem_reassignedSet_iff base htarget,
    ascending_openSet target hbase, ascending_ownedWhere htarget _, ascending_ownedWhere htarget _,
    openSet_closeSet_length_le hbase htarget 1024⟩

end Sys2Proof.Delta
end

section
/-! The net labels: two nodes carry one label exactly when held relays join them (R48). -/

namespace Sys2Proof.Nets

open Sys2Proof.Machine Sys2Proof.Laws

theorem labelOf_of_length_le {labels : List Nat} {n : Nat} (h : labels.length ≤ n) : labelOf labels n = n := by
  simp [labelOf, h]

@[simp] theorem labelOf_range (k n : Nat) : labelOf (List.range k) n = n := by
  by_cases h : n < k
  · simp [labelOf, h]
  · exact labelOf_of_length_le (by simpa using h)

@[simp] theorem length_joinNodes (labels : List Nat) (x y : Nat) : (joinNodes labels x y).length = labels.length := by
  simp [joinNodes]

theorem labelOf_joinNodes (labels : List Nat) (x y n : Nat) (h : n < labels.length) :
    labelOf (joinNodes labels x y) n =
      if labelOf labels n = labelOf labels x ∨ labelOf labels n = labelOf labels y then
        min (labelOf labels x) (labelOf labels y)
      else labelOf labels n := by
  simp [labelOf, joinNodes, h]

theorem labelOf_joinNodes_endpoints {labels : List Nat} {x y : Nat} (hx : x < labels.length) (hy : y < labels.length) :
    labelOf (joinNodes labels x y) x = labelOf (joinNodes labels x y) y := by
  simp [labelOf_joinNodes, hx, hy]

/-- The labels after one entry of a holding table: a held relay joins its endpoints. -/
def joinEntry (s : State) (labels : List Nat) (e : Nat × Option Owner) : List Nat :=
  if e.2.isSome then joinNodes labels (s.relay e.1).a.toNat (s.relay e.1).b.toNat else labels

theorem netLabels_eq_foldl (s : State) (h : Holdings) : s.netLabels h = h.foldl (joinEntry s) (List.range 112) := rfl

@[simp] theorem length_joinEntry (s : State) (labels : List Nat) (e : Nat × Option Owner) :
    (joinEntry s labels e).length = labels.length := by
  unfold joinEntry
  split
  · exact length_joinNodes ..
  · rfl

/-- Two nodes of one label keep one label. -/
theorem labelOf_joinEntry_congr (s : State) {labels : List Nat} (e : Nat × Option Owner) {x y : Nat}
    (hx : x < labels.length) (hy : y < labels.length) (hxy : labelOf labels x = labelOf labels y) :
    labelOf (joinEntry s labels e) x = labelOf (joinEntry s labels e) y := by
  unfold joinEntry
  split
  · rw [labelOf_joinNodes _ _ _ _ hx, labelOf_joinNodes _ _ _ _ hy, hxy]
  · exact hxy

theorem labelOf_foldl_congr (s : State) (h : Holdings) {labels : List Nat} {x y : Nat}
    (hx : x < labels.length) (hy : y < labels.length) (hxy : labelOf labels x = labelOf labels y) :
    labelOf (h.foldl (joinEntry s) labels) x = labelOf (h.foldl (joinEntry s) labels) y := by
  induction h generalizing labels with
  | nil => exact hxy
  | cons e h ih =>
    exact ih (by simpa using hx) (by simpa using hy) (labelOf_joinEntry_congr s e hx hy hxy)

/-- Once a held relay has been met, its endpoints carry one label. -/
theorem labelOf_foldl_endpoints (s : State) {h : Holdings} {labels : List Nat} {r : Nat} {o : Owner}
    (hmem : (r, some o) ∈ h) (ha : (s.relay r).a.toNat < labels.length) (hb : (s.relay r).b.toNat < labels.length) :
    labelOf (h.foldl (joinEntry s) labels) (s.relay r).a.toNat =
      labelOf (h.foldl (joinEntry s) labels) (s.relay r).b.toNat := by
  induction h generalizing labels with
  | nil => cases hmem
  | cons e h ih =>
    rcases List.mem_cons.mp hmem with rfl | hmem
    · exact labelOf_foldl_congr s h (by simpa using ha) (by simpa using hb) (labelOf_joinNodes_endpoints ha hb)
    · exact ih hmem (by simpa using ha) (by simpa using hb)

theorem joined_endpoints (s : State) {h : Holdings} {r : Nat} (hr : ownerOf h r ≠ none) :
    s.Joined h (s.relay r).a.toNat (s.relay r).b.toNat :=
  .rel _ _ ⟨r, hr, rfl, rfl⟩

/-- Joining two nodes of one net leaves every node in the net of its label. -/
theorem joined_labelOf_joinNodes (s : State) {h : Holdings} {labels : List Nat} {x y : Nat} (hxy : s.Joined h x y)
    (hl : ∀ n, s.Joined h n (labelOf labels n)) (n : Nat) : s.Joined h n (labelOf (joinNodes labels x y) n) := by
  by_cases hn : n < labels.length
  · rw [labelOf_joinNodes _ _ _ _ hn]
    split
    case isFalse => exact hl n
    case isTrue hnet =>
      have nx : s.Joined h n x := by
        rcases hnet with e | e
        · exact (hl n).trans _ _ _ (e ▸ (hl x).symm)
        · exact ((hl n).trans _ _ _ (e ▸ (hl y).symm)).trans _ _ _ hxy.symm
      rcases min_choice (labelOf labels x) (labelOf labels y) with e | e <;> rw [e]
      · exact nx.trans _ _ _ (hl x)
      · exact (nx.trans _ _ _ hxy).trans _ _ _ (hl y)
  · rw [labelOf_of_length_le (by simpa using hn)]
    exact .refl n

theorem joined_labelOf_netLabels (s : State) {h : Holdings} (hwf : Table.wf none h) (n : Nat) :
    s.Joined h n (labelOf (s.netLabels h) n) := by
  rw [netLabels_eq_foldl]
  refine List.foldlRecOn h (joinEntry s) (motive := fun labels => ∀ n, s.Joined h n (labelOf labels n)) ?_ ?_ n
  · intro n
    rw [labelOf_range]
    exact .refl n
  · rintro labels hl ⟨r, o⟩ hmem
    have held : ownerOf h r ≠ none := by
      obtain ⟨ho, hget⟩ := (table_mem_iff_get none h hwf r o).mp hmem
      exact fun hnone => ho (hget.symm.trans hnone)
    unfold joinEntry
    split
    · exact joined_labelOf_joinNodes s (joined_endpoints s held) hl
    · exact hl

/-- Two nodes carry the same net identity exactly when held relays join them (R48). -/
theorem labelOf_netLabels_eq_iff (s : State) {h : Holdings} (hwf : Table.wf none h) (hvalid : s.NodesValid h)
    (x y : Nat) : labelOf (s.netLabels h) x = labelOf (s.netLabels h) y ↔ s.Joined h x y := by
  constructor
  · intro hxy
    exact (joined_labelOf_netLabels s hwf x).trans _ _ _ (hxy ▸ (joined_labelOf_netLabels s hwf y).symm)
  · intro hxy
    induction hxy with
    | rel x y hedge =>
      obtain ⟨r, hr, rfl, rfl⟩ := hedge
      obtain ⟨o, ho⟩ := Option.ne_none_iff_exists'.mp hr
      obtain ⟨ha, hb⟩ := hvalid r hr
      exact labelOf_foldl_endpoints s ((Delta.mem_holdings_iff hwf r o).mpr ho)
        (by rw [List.length_range]; omega) (by rw [List.length_range]; omega)
    | refl x => rfl
    | symm x y _ ih => exact ih.symm
    | trans x y z _ _ ihxy ihyz => exact ihxy.trans ihyz

end Sys2Proof.Nets
end

section
/-! The guarded port set of a plan (R52). -/

namespace Sys2Proof.GuardSet

open Sys2Proof.Machine

/-- The bits set one by one from a test are the test's values. -/
theorem getLsbD_foldl_range (p : Nat → Bool) (n j : Nat) (hj : j < 24) :
    ((List.range n).foldl (fun m k => if p k then m ||| (1#24 <<< k) else m) 0).getLsbD j =
      (decide (j < n) && p j) := by
  induction n with
  | zero => simp
  | succ n ih =>
    rw [List.range_succ, List.foldl_append, List.foldl_cons, List.foldl_nil]
    generalize (List.range n).foldl (fun m k => if p k then m ||| (1#24 <<< k) else m) 0 = m at ih ⊢
    have bit : (1#24 <<< n).getLsbD j = decide (n = j) := by
      rw [← BitVec.twoPow_eq, BitVec.getLsbD_twoPow]
      by_cases e : n = j <;> simp [e, hj]
    by_cases e : n = j
    · subst e
      by_cases hp : p n = true <;> simp [hp, ih, bit]
    · have lt_succ : j < n + 1 ↔ j < n := by omega
      split
      · rw [BitVec.getLsbD_or, ih, bit, decide_eq_false e, Bool.or_false, decide_eq_decide.mpr lt_succ]
      · rw [ih, decide_eq_decide.mpr lt_succ]

theorem isGuarded_iff (s : State) {k : Nat} (hk : k < 24) :
    s.isGuarded k = true ↔ (s.port k).role = .force ∧ (s.port k).guarded = true := by
  have h111 : 80 + k ≤ 111 := by omega
  simp [State.isGuarded, State.isForce, hk, h111]

/-- A node shares a net with one of the relays exactly when it is joined to an endpoint of one of them. -/
theorem sharesNet_netLabels_iff (s : State) {h : Holdings} (hwf : Table.wf none h) (hvalid : s.NodesValid h)
    (relays : List Nat) (n : Nat) :
    s.sharesNet (s.netLabels h) relays n = true ↔
      ∃ r, r ∈ relays ∧ (s.Joined h (s.relay r).a.toNat n ∨ s.Joined h (s.relay r).b.toNat n) := by
  simp [State.sharesNet, Nets.labelOf_netLabels_eq_iff s hwf hvalid]

theorem getLsbD_guardSet (s : State) (base target : Holdings) (opens closes : List Nat) {k : Nat} (hk : k < 24) :
    (s.guardSet base target opens closes).getLsbD k =
      (s.isGuarded k && (s.sharesNet (s.netLabels base) opens (80 + k) ||
        s.sharesNet (s.netLabels target) closes (80 + k))) := by
  rw [State.guardSet, getLsbD_foldl_range _ 24 k hk, decide_eq_true hk, Bool.true_and]

/-- Settles O37: the guard set's bits test net identities, which are the nets of the held relays. -/
theorem guardSetCoversSwitchedNets : Obligations.GuardSetCoversSwitchedNets := by
  intro s base target hbase htarget vbase vtarget k hk
  rw [getLsbD_guardSet s base target _ _ hk, Bool.and_eq_true, Bool.or_eq_true, isGuarded_iff s hk,
    sharesNet_netLabels_iff s hbase vbase, sharesNet_netLabels_iff s htarget vtarget]
  simp only [Delta.mem_openSet_iff target hbase, Delta.mem_closeSet_relays_iff base htarget]

end Sys2Proof.GuardSet
end

section
/-! The derated switching times of a class (R70 to R72). -/

namespace Sys2Proof.SwitchingTime

open Sys2Proof.Machine

section

variable {c : ClassEntry} {w b : Nat}

theorem ratedLife_pos (hlife : c.ratedLife ≠ 0) : 0 < ratedLife c := by
  have hpos : 0 < c.ratedLife.toNat := by bv_omega
  rw [ratedLife]
  omega

/-- The extra time is the exact quotient of R70, rounded up. -/
theorem extraTime_eq_ceilDiv (hlife : c.ratedLife ≠ 0) (w b : Nat) :
    extraTime c w b = (b * min w (2 * ratedLife c) * c.derate.toNat) ⌈/⌉ (ratedLife c * 100) := by
  have hpos := ratedLife_pos hlife
  rw [extraTime, Nat.ceilDiv_eq_add_pred_div, Nat.add_sub_assoc (by omega)]

theorem extraTime_le_iff (hlife : c.ratedLife ≠ 0) (w b n : Nat) :
    extraTime c w b ≤ n ↔ b * min w (2 * ratedLife c) * c.derate.toNat ≤ n * (ratedLife c * 100) := by
  have hpos := ratedLife_pos hlife
  rw [extraTime_eq_ceilDiv hlife, ceilDiv_le_iff_le_mul (by omega), Nat.mul_comm n]

/-- The quotient is at most `2 * b`, a whole number, so that rounding up does not pass it (R71). -/
theorem extraTime_le_two_mul (hlife : c.ratedLife ≠ 0) (hderate : c.derate.toNat ≤ 100) (w b : Nat) :
    extraTime c w b ≤ 2 * b := by
  rw [extraTime_le_iff hlife]
  calc b * min w (2 * ratedLife c) * c.derate.toNat
      ≤ b * (2 * ratedLife c) * 100 := by gcongr; exact Nat.min_le_right _ _
    _ = 2 * b * (ratedLife c * 100) := by ring

theorem extraTime_eq_zero (hlife : c.ratedLife ≠ 0) (h : w = 0 ∨ c.derate = 0 ∨ b = 0) :
    extraTime c w b = 0 := by
  rw [extraTime_eq_ceilDiv hlife]
  obtain rfl | hzero | rfl := h
  · simp
  · simp [hzero]
  · simp

/-- From twice the rated life on, the cap cancels the rated life from the quotient. -/
theorem extraTime_of_worn (hlife : c.ratedLife ≠ 0) (hworn : 2 * ratedLife c ≤ w) (b : Nat) :
    extraTime c w b = (2 * b * c.derate.toNat + 99) / 100 := by
  refine eq_of_forall_ge_iff fun n => ?_
  have cancel : b * (2 * ratedLife c) * c.derate.toNat ≤ n * (ratedLife c * 100) ↔
      2 * b * c.derate.toNat ≤ n * 100 := by
    rw [show b * (2 * ratedLife c) * c.derate.toNat = ratedLife c * (2 * b * c.derate.toNat) by ring,
      Nat.mul_left_comm n, Nat.mul_le_mul_left_iff (ratedLife_pos hlife)]
  rw [extraTime_le_iff hlife, Nat.min_eq_right hworn, cancel]
  omega

theorem le_derated (c : ClassEntry) (w b : Nat) : b ≤ derated c w b := Nat.le_add_right _ _

theorem derated_le (hlife : c.ratedLife ≠ 0) (hderate : c.derate.toNat ≤ 100) (w b : Nat) :
    derated c w b ≤ 3 * b := by
  have hextra := extraTime_le_two_mul hlife hderate w b
  rw [derated]
  omega

theorem derated_eq_base (hlife : c.ratedLife ≠ 0) (h : w = 0 ∨ c.derate = 0 ∨ b = 0) : derated c w b = b := by
  rw [derated, extraTime_eq_zero hlife h, Nat.add_zero]

theorem derated_of_worn (hlife : c.ratedLife ≠ 0) (hworn : 2 * ratedLife c ≤ w) (b : Nat) :
    derated c w b = b + (2 * b * c.derate.toNat + 99) / 100 := by
  rw [derated, extraTime_of_worn hlife hworn]

theorem derated_of_worn_of_full_derate (hlife : c.ratedLife ≠ 0) (hworn : 2 * ratedLife c ≤ w)
    (hfull : c.derate = 100) (b : Nat) : derated c w b = 3 * b := by
  have hnat : c.derate.toNat = 100 := by rw [hfull]; rfl
  rw [derated_of_worn hlife hworn, hnat]
  omega

@[simp] theorem switchTime_open (c : ClassEntry) (w : Nat) :
    switchTime c false w = derated c w c.release.toNat := rfl

@[simp] theorem switchTime_close (c : ClassEntry) (w : Nat) :
    switchTime c true w = derated c w (c.operate.toNat + c.settle.toNat) := rfl

theorem switchTime_open_le (hlife : c.ratedLife ≠ 0) (hderate : c.derate.toNat ≤ 100) (w : Nat) :
    switchTime c false w ≤ 196605 := by
  have hrange := c.release.isLt
  have hbound := derated_le hlife hderate w c.release.toNat
  rw [switchTime_open]
  omega

theorem switchTime_close_le (hlife : c.ratedLife ≠ 0) (hderate : c.derate.toNat ≤ 100) (w : Nat) :
    switchTime c true w ≤ 393210 := by
  have hoperate := c.operate.isLt
  have hsettle := c.settle.isLt
  have hbound := derated_le hlife hderate w (c.operate.toNat + c.settle.toNat)
  rw [switchTime_close]
  omega

theorem switchTime_close_pos (hoperate : c.operate ≠ 0) (w : Nat) : 1 ≤ switchTime c true w := by
  have hpos : 0 < c.operate.toNat := by bv_omega
  have hbase := le_derated c w (c.operate.toNat + c.settle.toNat)
  rw [switchTime_close]
  omega

end

/-- Settles O39: the extra time is a rounded-up quotient that the cap on wear keeps within twice the base time. -/
theorem deratedTimesRoundUp : Obligations.DeratedTimesRoundUp := by
  intro c w b hlife hderate
  exact ⟨rfl, extraTime_le_iff hlife w b, le_derated c w b, derated_le hlife hderate w b,
    fun h => derated_eq_base hlife (h.imp_right Or.inl),
    fun hbase => (derated_eq_base hlife (.inr (.inr hbase))).trans hbase,
    fun hworn => derated_of_worn hlife hworn b,
    fun hworn hfull => derated_of_worn_of_full_derate hlife hworn hfull b,
    switchTime_open c w, switchTime_close c w, switchTime_open_le hlife hderate w,
    switchTime_close_le hlife hderate w, fun hoperate => switchTime_close_pos hoperate w⟩

end Sys2Proof.SwitchingTime
end

section
/-! What a WRITE frame that is acted on answers, and what storing its words one by one leaves at each index (R178). -/

namespace Sys2Proof.WriteWords

open Sys2Proof.Machine Sys2Proof.Laws

/-- A WRITE that is acted on is answered with what its handling gives, which keeps the address. -/
theorem receiveWrite_of_actsOn {s : State} {e : Envelope} {b : Bool} (hacts : s.ActsOn e b) (a : WriteArg)
    (space : Byte) (h : Handled) (haddress : h.state.ring.address = s.ring.address) :
    s.receiveWrite e a space h = h.state.replies kindWrite (writeArgWord a space) e b h.answer := by
  rw [State.receiveWrite, receivePlain_of_actsOn s _ _ e b h hacts, State.replies, haddress]

theorem inSpace_iff (sp : Space) (start : Nat) (ws : List Word) :
    inSpace sp start ws = true ↔ Fits sp.size start ws := decide_eq_true_iff

theorem everyWord_iff (p : Nat → Word → Bool) (start : Nat) (ws : List Word) :
    everyWord p start ws = true ↔ ∀ k (h : k < ws.length), p (start + k) ws[k] = true := by
  induction ws generalizing start with
  | nil => simp [everyWord]
  | cons w ws ih =>
    rw [everyWord, Bool.and_eq_true, ih]
    constructor
    · rintro ⟨hfirst, hrest⟩ (_ | k) hk
      · exact hfirst
      · simpa [Nat.add_assoc, Nat.add_comm 1 k] using hrest k (Nat.lt_of_succ_lt_succ hk)
    · refine fun hall => ⟨hall 0 (Nat.succ_pos _), fun k hk => ?_⟩
      simpa [Nat.add_assoc, Nat.add_comm 1 k] using hall (k + 1) (Nat.succ_lt_succ hk)

section

variable {store : State → Nat → Word → State} {read : State → Nat → Word}

/-- When each word stored shows at its own index alone, a payload stored shows nowhere outside its range. -/
theorem read_storeWords_outside (hother : ∀ s i w j, j ≠ i → read (store s i w) j = read s j)
    (s : State) (start : Nat) (ws : List Word) (i : Nat) (hi : i < start ∨ start + ws.length ≤ i) :
    read (storeWords store s start ws) i = read s i := by
  induction ws generalizing s start with
  | nil => rfl
  | cons w ws ih =>
    rw [List.length_cons] at hi
    calc read (storeWords store (store s start w) (start + 1) ws) i
        = read (store s start w) i := ih _ _ (by omega)
      _ = read s i := hother s start w i (by omega)

/-- Inside its range a payload shows word by word as each word is stored: no later word changes it. -/
theorem read_storeWords_inside {p : Nat → Word → Bool} {stored : Nat → Word → Word}
    (hother : ∀ s i w j, j ≠ i → read (store s i w) j = read s j)
    (hsame : ∀ s i w, p i w = true → read (store s i w) i = stored i w)
    (s : State) (start : Nat) (ws : List Word) (hp : everyWord p start ws = true) (k : Nat) (hk : k < ws.length) :
    read (storeWords store s start ws) (start + k) = stored (start + k) ws[k] := by
  induction ws generalizing s start k with
  | nil => exact absurd hk (Nat.not_lt_zero k)
  | cons w ws ih =>
    obtain ⟨hfirst, hrest⟩ := Bool.and_eq_true_iff.mp hp
    cases k with
    | zero =>
      calc read (storeWords store (store s start w) (start + 1) ws) start
          = read (store s start w) start := read_storeWords_outside hother _ _ _ _ (.inl (Nat.lt_succ_self start))
        _ = stored start w := hsame s start w hfirst
    | succ k =>
      have hshift : start + (k + 1) = start + 1 + k := by omega
      rw [hshift]
      exact ih _ _ hrest k (Nat.lt_of_succ_lt_succ hk)

end

end Sys2Proof.WriteWords
end

section
/-! The WEAR space: what one word stored there changes, and the checks of a WRITE to it (R160 to R162). -/

namespace Sys2Proof.WearSpace

open Sys2Proof.Machine Sys2Proof.Laws Sys2Proof.WriteWords

/-- Every word that falls on an odd index carries a health code (R161). -/
abbrev HealthsDefined (start : Nat) (ws : List Word) : Prop :=
  ∀ k (h : k < ws.length), (start + k) % 2 = 1 → ws[k].extractLsb' 0 2 ≠ 3

/-- What index `i` of WEAR reads as after `w` is stored there: a count as written, a health in its two bits. -/
abbrev storedWord (i : Nat) (w : Word) : Word := if i % 2 = 0 then w else w &&& 3

theorem ofCode_isSome_iff (c : BitVec 2) : (Health.ofCode c).isSome = true ↔ c ≠ 3 := by
  revert c
  decide

theorem code_of_ofCode {c : BitVec 2} {x : Health} (h : Health.ofCode c = some x) : x.code = c := by
  revert c x
  decide

theorem wearStorable_iff (i : Nat) (w : Word) :
    wearStorable i w = true ↔ (i % 2 = 1 → w.extractLsb' 0 2 ≠ 3) := by
  rw [wearStorable, Bool.or_eq_true, decide_eq_true_iff, ofCode_isSome_iff, imp_iff_not_or,
    Nat.mod_two_not_eq_one]

theorem everyWord_wearStorable_iff (start : Nat) (ws : List Word) :
    everyWord wearStorable start ws = true ↔ HealthsDefined start ws := by
  simp only [everyWord_iff, wearStorable_iff]

/-- The two low bits of a word, as a word. -/
theorem lowBits_eq_and (w : Word) : 0#30 ++ w.extractLsb' 0 2 = w &&& 3 := by
  apply BitVec.eq_of_toNat_eq
  rw [BitVec.toNat_append, BitVec.toNat_and]
  simp [Nat.and_two_pow_sub_one_eq_mod w.toNat 2]

/-- A word stored at an even index replaces the count of its relay and keeps the health (R160). -/
theorem storeWear_even (s : State) {i : Nat} (w : Word) (heven : i % 2 = 0) :
    storeWear s i w = s.setWear (i / 2) { s.wearOf (i / 2) with count := w } := by
  rw [storeWear, if_pos heven]
  rfl

/-- A health stored at an odd index replaces the health of its relay and keeps the count (R160). -/
theorem storeWear_odd (s : State) {i : Nat} {w : Word} {x : Health} (hodd : i % 2 ≠ 0)
    (hx : Health.ofCode (w.extractLsb' 0 2) = some x) :
    storeWear s i w = s.setWear (i / 2) { s.wearOf (i / 2) with health := x } := by
  simp only [storeWear, if_neg hodd, hx]
  rfl

/-- A WEAR word shows the count of its relay at an even index and the health at an odd one (R160). -/
theorem wordAt_wear (s : State) (i : Nat) :
    s.wordAt .wear i =
      if i % 2 = 0 then (s.wearOf (i / 2)).count else 0#30 ++ (s.wearOf (i / 2)).health.code := rfl

theorem wordAt_storeWear_same (s : State) (i : Nat) (w : Word) (hw : wearStorable i w = true) :
    (storeWear s i w).wordAt .wear i = storedWord i w := by
  by_cases heven : i % 2 = 0
  · simp [storeWear_even s w heven, wordAt_wear, wearOf_setWear, heven]
  · have hcode : w.extractLsb' 0 2 ≠ 3 := (wearStorable_iff i w).mp hw (by omega)
    obtain ⟨x, hx⟩ := Option.isSome_iff_exists.mp ((ofCode_isSome_iff _).mpr hcode)
    simp [storeWear_odd s heven hx, wordAt_wear, wearOf_setWear, heven, storedWord, code_of_ofCode hx, lowBits_eq_and]

/-- A word stored is seen at its own index alone: not at another relay's, and not at the other word of its record. -/
theorem wordAt_storeWear_other (s : State) (i : Nat) (w : Word) (j : Nat) (hj : j ≠ i) :
    (storeWear s i w).wordAt .wear j = s.wordAt .wear j := by
  by_cases heven : i % 2 = 0
  · rw [storeWear_even s w heven, wordAt_wear, wordAt_wear, wearOf_setWear]
    by_cases hrelay : j / 2 = i / 2
    · have hodd : ¬ j % 2 = 0 := by omega
      simp [hrelay, hodd]
    · simp [hrelay]
  · cases hx : Health.ofCode (w.extractLsb' 0 2) with
    | none => simp [storeWear, heven, hx]
    | some x =>
      rw [storeWear_odd s heven hx, wordAt_wear, wordAt_wear, wearOf_setWear]
      by_cases hrelay : j / 2 = i / 2
      · have heven' : j % 2 = 0 := by omega
        simp [hrelay, heven']
      · simp [hrelay]

/-- A word stored changes the wear records and nothing else. -/
theorem storeWear_frame (s : State) (i : Nat) (w : Word) : ∃ m, storeWear s i w = { s with wear.records := m } := by
  by_cases heven : i % 2 = 0
  · exact ⟨_, storeWear_even s w heven⟩
  · cases hx : Health.ofCode (w.extractLsb' 0 2) with
    | none => exact ⟨s.wear.records, by simp [storeWear, heven, hx]⟩
    | some x => exact ⟨_, storeWear_odd s heven hx⟩

theorem storeWords_storeWear_frame (s : State) (start : Nat) (ws : List Word) :
    ∃ m, storeWords storeWear s start ws = { s with wear.records := m } := by
  induction ws generalizing s start with
  | nil => exact ⟨s.wear.records, rfl⟩
  | cons w ws ih =>
    obtain ⟨first, hfirst⟩ := storeWear_frame s start w
    obtain ⟨rest, hrest⟩ := ih (storeWear s start w) (start + 1)
    exact ⟨rest, by rw [storeWords, hrest, hfirst]⟩

theorem storedAt_storeWords (s : State) (start : Nat) (ws : List Word) (hws : HealthsDefined start ws) :
    StoredAt 2048 (s.wordAt .wear) ((storeWords storeWear s start ws).wordAt .wear) storedWord start ws :=
  ⟨read_storeWords_inside (read := fun s => s.wordAt .wear) wordAt_storeWear_other wordAt_storeWear_same s start ws
      ((everyWord_wearStorable_iff start ws).mpr hws),
    fun i _ hi => read_storeWords_outside (read := fun s => s.wordAt .wear) wordAt_storeWear_other s start ws i hi⟩

/-- The checks of a WRITE to WEAR, each with the answer it gives, and the words stored when all of them pass (R161). -/
theorem writeWear_eq (s : State) (start : Nat) (ws : List Word) :
    s.writeWear start ws =
      if s.control.mode = .lockedOut then .refuse .lockedOut s
      else if ¬ Fits 2048 start ws then .refuse .badIndex s
      else if ¬ everyWord wearStorable start ws = true then .refuse .badArgument s
      else if s.control.mode = .run ∧ s.engine.phase ≠ .idle then .busy .engine s
      else if s.control.mode = .run ∧ s.resolver.context ≠ none then .busy .resolving s
      else { answer := .done, state := storeWords storeWear s start ws } := by
  have hspace : inSpace .wear start ws = true ↔ Fits 2048 start ws := inSpace_iff .wear start ws
  simp only [State.writeWear, ← hspace, Bool.not_eq_true, Bool.not_eq_true', Option.isSome_iff_ne_none]

/-- A WRITE to WEAR that is acted on is answered as its checks come out. -/
theorem exec_writeWear {s : State} {e : Envelope} {b : Bool} (hacts : s.ActsOn e b) (a : WriteArg) {h : Handled}
    (hh : s.writeWear a.start.toNat e.payload = h) (haddress : h.state.ring.address = s.ring.address) :
    exec (.writeWear e a) s = .next (h.state.replies kindWrite (writeArgWord a 8) e b h.answer) := by
  calc exec (.writeWear e a) s
      = execWriteWear e a s := rfl
    _ = .next (s.receiveWrite e a 8 h) := by rw [execWriteWear, finishRead_idle s hacts.1.2.2, hh]; rfl
    _ = _ := by rw [receiveWrite_of_actsOn hacts a 8 h haddress]

/-- Settles O13: the clauses are the branches of `writeWear_eq`, and the words stored show where they were written. -/
theorem wearWritesStoreOrRefuse : Obligations.WearWritesStoreOrRefuse := by
  intro s e a b hacts storable refusal
  have hall : everyWord wearStorable a.start.toNat e.payload = true ↔ storable :=
    everyWord_wearStorable_iff a.start.toNat e.payload
  refine ⟨fun hmode => ?lockedOut, fun hmode hfit => ?index, fun hmode hfit hhealth => ?health,
    fun hmode hfit hhealth hphase => ?engine, fun hmode hfit hhealth hphase hcontext => ?resolver,
    fun hfree hfit hhealth => ?stored⟩
  case lockedOut => exact exec_writeWear hacts a (h := .refuse .lockedOut s) (by rw [writeWear_eq, if_pos hmode]) rfl
  case index =>
    exact exec_writeWear hacts a (h := .refuse .badIndex s) (by rw [writeWear_eq, if_neg hmode, if_pos hfit]) rfl
  case health =>
    exact exec_writeWear hacts a (h := .refuse .badArgument s) (by simp [writeWear_eq, hmode, hfit, hall, hhealth]) rfl
  case engine =>
    exact exec_writeWear hacts a (h := .busy .engine s) (by simp [writeWear_eq, hmode, hfit, hall, hhealth, hphase]) rfl
  case resolver =>
    exact exec_writeWear hacts a (h := .busy .resolving s)
      (by simp [writeWear_eq, hmode, hfit, hall, hhealth, hphase, hcontext]) rfl
  case stored =>
    obtain ⟨m, hm⟩ := storeWords_storeWear_frame s a.start.toNat e.payload
    have hdone : s.writeWear a.start.toNat e.payload =
        { answer := .done, state := storeWords storeWear s a.start.toNat e.payload } := by
      rcases hfree with hmode | ⟨hmode, hphase, hcontext⟩
      · simp [writeWear_eq, hmode, hfit, hall, hhealth]
      · simp [writeWear_eq, hmode, hfit, hall, hhealth, hphase, hcontext]
    exact ⟨m, _, hm, exec_writeWear hacts a hdone (by rw [hm]),
      storedAt_storeWords s a.start.toNat e.payload hhealth⟩

end Sys2Proof.WearSpace
end

section
/-! The NOTICES space: a READ takes the oldest records, and nothing can be written there (R166). -/

namespace Sys2Proof.NoticesSpace

open Sys2Proof.Machine Sys2Proof.Laws Sys2Proof.WriteWords

/-- An addressed READ of NOTICES that is acted on is answered DONE with the records it takes. -/
theorem exec_readNotices {s : State} {e : Envelope} (hacts : s.ActsOn e false) (a : ReadArg) :
    exec (.readNotices e a) s =
      .next ((s.takeNotices e).1.state.send (sealedWords kindRead (readArgWord a 15)
        (answered (s.takeNotices e).2 false s.ring.address .done))) := by
  calc exec (.readNotices e a) s
      = execReadNotices e a s := rfl
    _ = .next (s.receiveRead e a 15 (s.takeNotices e)) := by
        rw [execReadNotices, finishRead_idle s hacts.1.2.2]
        rfl
    _ = _ := by
        rw [State.receiveRead, receive_of_actsOn s _ _ e false _ hacts]
        rfl

theorem answered_done_filledWith (e : Envelope) (ws : List Word) (address : BitVec 4) :
    answered (filledWith e ws) false address .done =
      { e with
        status := 1, reason := 0, filled := BitVec.ofNat 8 ws.length, payload := ws ++ e.payload.drop ws.length } :=
  rfl

theorem toNat_append_eq {m n : Nat} (x : BitVec m) (y : BitVec n) : (x ++ y).toNat = x.toNat * 2 ^ n + y.toNat := by
  rw [BitVec.toNat_append, ← Nat.shiftLeft_add_eq_or_of_lt y.isLt, Nat.shiftLeft_eq]

/-- The relay stands in the ten low bits, the kind in the next one, and the count above them without its eleven low
bits. -/
theorem toNat_noticeWord (n : Notice) (hrelay : n.relay < 1024) :
    n.word.toNat = n.relay + (if n.kind = .retire then 1024 else 0) + 2048 * (n.count.toNat / 2048) := by
  have hkind : n.kind.bit.toNat * 1024 = if n.kind = .retire then 1024 else 0 := by
    cases n.kind <;> rfl
  have hcount : (n.count.extractLsb' 11 21).toNat = n.count.toNat / 2048 := by
    have hword := n.count.isLt
    rw [BitVec.extractLsb'_toNat, Nat.shiftRight_eq_div_pow]
    omega
  rw [Notice.word, toNat_append_eq, toNat_append_eq, BitVec.toNat_ofNat, Nat.mod_eq_of_lt hrelay, ← hkind, hcount]
  ring

/-- A WRITE that names a space that no row writes is refused READ_ONLY and changes nothing (R178). -/
theorem exec_write_readOnly {s : State} {e : Envelope} {b : Bool} (hacts : s.ActsOn e b) (a : WriteArg)
    {space : Byte} {sp : Space} (hsp : Space.ofCode space = some sp) :
    exec (.write e a space) s = .next (s.replies kindWrite (writeArgWord a space) e b (.refused .readOnly)) := by
  calc exec (.write e a space) s
      = execWrite e a space s := rfl
    _ = .next (s.receiveWrite e a space (.refuse .readOnly s)) := by
        rw [execWrite, finishRead_idle s hacts.1.2.2, hsp]
    _ = _ := by
        rw [receiveWrite_of_actsOn hacts a space _ rfl]
        rfl

/-- Settles O17: `takeNotices` parts the list where the payload ends. -/
theorem noticesReadsRemoveWhatTheyReturn : Obligations.NoticesReadsRemoveWhatTheyReturn := by
  refine ⟨fun s e a hacts => ?_, toNat_noticeWord, fun s e a b hacts => ?_⟩
  · rw [exec_readNotices hacts, State.takeNotices, answered_done_filledWith, List.length_map]
  · exact exec_write_readOnly hacts a (sp := .notices) rfl

end Sys2Proof.NoticesSpace
end

section
/-! Frames that are not acted on: all of the kinds that R172 classifies by destination come to the ring port alike. -/

namespace Sys2Proof.RefusedFrames

open Sys2Proof.Machine Sys2Proof.Laws

/-- Whichever row a directed frame meets, unless it is acted on it is no more than received. -/
theorem exec_directed_of_not_act {c : Instr} {kind : Byte} {arg : Word} {e : Envelope} {s : State}
    (hc : c.directed = some (kind, arg, e)) (hidle : s.ring.reading = none) (hd : ∀ b, s.disposition e ≠ .act b) :
    ∃ handle, exec c s = .next (s.receive kind arg e handle) := by
  rw [← finishRead_idle s hidle] at hd
  suffices h : ∃ handle, exec c s = .next (s.finishRead.receive kind arg e handle) by
    rwa [finishRead_idle s hidle] at h
  cases c with
  | read e' a space =>
    cases hc
    have hread : exec (.read e a space) s =
        .next (s.finishRead.receiveRead e a space (.refuse .badArgument s.finishRead, e)) := by
      change execRead e a space s = _
      cases hdisp : s.finishRead.disposition e with
      | act b => exact absurd hdisp (hd b)
      | cutShort | pass | clash | badLength _ => simp only [execRead, hdisp]
    exact ⟨_, hread⟩
  | softReset e' a =>
    cases hc
    have hreset : exec (.softReset e a) s =
        .next (s.finishRead.receiveControl e a .softReset { answer := .done, state := s.finishRead }) := by
      change execSoftReset e a s = _
      cases hdisp : s.finishRead.disposition e with
      | act b => exact absurd hdisp (hd b)
      | cutShort | pass | clash | badLength _ => simp only [execSoftReset, hdisp]
    exact ⟨_, hreset⟩
  | _ => cases hc <;> exact ⟨_, rfl⟩

/-- A disposition to refuse a directed frame for its length says all that the command does. -/
theorem exec_directed_of_badLength {c : Instr} {kind : Byte} {arg : Word} {e : Envelope} {s : State} {b : Bool}
    (hc : c.directed = some (kind, arg, e)) (hidle : s.ring.reading = none) (hd : s.disposition e = .badLength b) :
    exec c s = .next (s.replies kind arg e b (.refused .badLength)) := by
  obtain ⟨handle, hexec⟩ := exec_directed_of_not_act hc hidle (by simp [hd])
  rw [hexec, State.receive, hd]
  rfl

theorem answered_addressed_badLength (e : Envelope) (address : BitVec 4) :
    answered e false address (.refused .badLength) = { e with status := 4, reason := 3 } := rfl

theorem answered_broadcast_badLength (e : Envelope) (address : BitVec 4) :
    answered e true address (.refused .badLength) = { e with refusals := e.refusals ||| (1#16 <<< address.toNat) } := rfl

theorem lengthBad_iff (e : Envelope) : lengthBad e = true ↔ ¬ LengthAgrees e := by
  rw [← lengthBad_eq_false_iff, Bool.not_eq_false]

section

variable {s : State} {e : Envelope}

/-- The length of an addressed frame is looked at once its status is EMPTY (R173, R175). -/
theorem disposition_addressed_badLength (hlistens : s.Listens) (hmark : e.marks.getLsbD 0 = false)
    (hlength : ¬ LengthAgrees e) (hdest : e.dest.toNat = s.ring.address.toNat) (hstatus : e.status = 0) :
    s.disposition e = .badLength false := by
  obtain ⟨hlock, hreset, -⟩ := hlistens
  have hcorrupt : isCorrupt e = false := hmark
  simp [State.disposition, hlock, hreset, hcorrupt, hdest, hstatus, (lengthBad_iff e).mpr hlength]

/-- A broadcast frame is never taken for an addressed one, since ring addresses have four bits. -/
theorem disposition_broadcast_badLength (hlistens : s.Listens) (hmark : e.marks.getLsbD 0 = false)
    (hlength : ¬ LengthAgrees e) (hdest : e.dest = 255) : s.disposition e = .badLength true := by
  obtain ⟨hlock, hreset, -⟩ := hlistens
  have hcorrupt : isCorrupt e = false := hmark
  have haddress : 255 ≠ s.ring.address.toNat := by
    have := s.ring.address.isLt
    omega
  simp [State.disposition, hlock, hreset, hcorrupt, hdest, haddress, (lengthBad_iff e).mpr hlength]

/-- A POLL of bad length is refused with this controller's bit, whatever its destination and status (R175, R184). -/
theorem exec_poll_of_badLength (hlistens : s.Listens) (hmark : e.marks.getLsbD 0 = false)
    (hlength : ¬ LengthAgrees e) (arg : Word) :
    exec (.poll e arg) s = .next (s.send (sealedWords kindPoll arg (refusedBroadcast e s.ring.address))) := by
  obtain ⟨hlock, hreset, hidle⟩ := hlistens
  have hcorrupt : isCorrupt e = false := hmark
  change execPoll e arg s = _
  simp [execPoll, finishRead_idle s hidle, hlock, hreset, hcorrupt, (lengthBad_iff e).mpr hlength]

end

/-- Settles O5: a directed frame goes by its disposition, and `answered` writes nothing of the payload. -/
theorem badLengthIsRefused : Obligations.BadLengthIsRefused := by
  refine ⟨fun c kind arg e s hc hlistens hmark hlength => ⟨fun hdest hstatus => ?addressed, fun hdest => ?broadcast⟩,
    fun e arg s hlistens hmark hlength => ?poll⟩
  case addressed =>
    have hd := disposition_addressed_badLength hlistens hmark hlength hdest hstatus
    rw [exec_directed_of_badLength hc hlistens.2.2 hd, State.replies, answered_addressed_badLength]
  case broadcast =>
    have hd := disposition_broadcast_badLength hlistens hmark hlength hdest
    rw [exec_directed_of_badLength hc hlistens.2.2 hd, State.replies, answered_broadcast_badLength]
  case poll => exact exec_poll_of_badLength hlistens hmark hlength arg

end Sys2Proof.RefusedFrames
end

section
/-! CONTROL frames: what an operation that is acted on answers, and the checks of ENTER_CONFIGURE and ACK_ALERT
(R182, R187, R190). -/

namespace Sys2Proof.ControlFrames

open Sys2Proof.Machine Sys2Proof.Laws

/-- A CONTROL that is acted on is answered with what its handling gives, which keeps the address. -/
theorem receiveControl_of_actsOn {s : State} {e : Envelope} {b : Bool} (hacts : s.ActsOn e b) (a : ControlArg)
    (op : Operation) (h : Handled) (haddress : h.state.ring.address = s.ring.address) :
    s.receiveControl e a op h = h.state.replies kindControl (controlArgWord a op.code) e b h.answer := by
  rw [State.receiveControl, receivePlain_of_actsOn s _ _ e b h hacts, State.replies, haddress]

/-! ### ENTER_CONFIGURE (R187) -/

/-- A canonical holding table lists a held relay exactly when some relay has an owner. -/
theorem any_isSome_iff {h : Holdings} (hwf : Table.wf none h) :
    h.any (fun e => e.2.isSome) = true ↔ ∃ r, ownerOf h r ≠ none := by
  simp only [List.any_eq_true, Prod.exists, Option.isSome_iff_exists, Option.ne_none_iff_exists']
  constructor
  · rintro ⟨r, _, hmem, o, rfl⟩
    exact ⟨r, o, (Delta.mem_holdings_iff hwf r o).mp hmem⟩
  · rintro ⟨r, o, howner⟩
    exact ⟨r, some o, (Delta.mem_holdings_iff hwf r o).mpr howner, o, rfl⟩

theorem any_isSome_eq_false_iff {h : Holdings} (hwf : Table.wf none h) :
    h.any (fun e => e.2.isSome) = false ↔ ∀ r, ownerOf h r = none := by
  rw [← Bool.not_eq_true, any_isSome_iff hwf]
  exact not_exists_not

/-- The checks of an ENTER_CONFIGURE in RUN, each with the answer it gives. -/
theorem enterConfigure_run {s : State} (hmode : s.control.mode = .run) :
    s.enterConfigure =
      if s.resolver.context ≠ none then .busy .resolving s
      else if s.engine.phase ≠ .idle then .refuse .notEmpty s
      else if s.engine.holdings.any (fun e => e.2.isSome) = true then .refuse .notEmpty s
      else if s.gate.slot ≠ none then .refuse .notEmpty s
      else { answer := .done, state := { s with gate.latch := false, control.mode := .configure } } := by
  simp only [State.enterConfigure, hmode, Option.isSome_iff_ne_none]

/-- An ENTER_CONFIGURE that is acted on is answered as its checks come out. -/
theorem exec_enterConfigure {s : State} {e : Envelope} {b : Bool} (hacts : s.ActsOn e b) (a : ControlArg) {h : Handled}
    (hh : s.enterConfigure = h) (haddress : h.state.ring.address = s.ring.address) :
    exec (.enterConfigure e a) s = .next (h.state.replies kindControl (controlArgWord a 2) e b h.answer) := by
  calc exec (.enterConfigure e a) s
      = execEnterConfigure e a s := rfl
    _ = .next (s.receiveControl e a .enterConfigure h) := by
        rw [execEnterConfigure, finishRead_idle s hacts.1.2.2, hh]
    _ = _ := by rw [receiveControl_of_actsOn hacts a _ h haddress]; rfl

/-- Settles O20: the clauses are the branches of `enterConfigure_run`, where a canonical holding table lists held relays
alone. -/
theorem enterConfigureNeedsAnEmptyBoard : Obligations.EnterConfigureNeedsAnEmptyBoard := by
  intro s e a b hcanonical hacts answer
  have hholds := any_isSome_iff hcanonical.holdings
  have hempty := any_isSome_eq_false_iff hcanonical.holdings
  refine ⟨fun hmode => ?lockedOut, fun hmode => ?configure, fun hmode => ⟨fun hcontext => ?resolver,
    fun hcontext => ⟨fun hphase => ?engine, fun hphase => ⟨fun hheld => ?holdings,
      fun hfree => ⟨fun hslot => ?slot, fun hslot => ?taken⟩⟩⟩⟩⟩
  case lockedOut =>
    exact exec_enterConfigure hacts a (h := .refuse .lockedOut s) (by simp only [State.enterConfigure, hmode]) rfl
  case configure =>
    exact exec_enterConfigure hacts a (h := ⟨.done, s⟩) (by simp only [State.enterConfigure, hmode]) rfl
  case resolver =>
    exact exec_enterConfigure hacts a (h := .busy .resolving s)
      (by simp [enterConfigure_run hmode, hcontext]) rfl
  case engine =>
    exact exec_enterConfigure hacts a (h := .refuse .notEmpty s)
      (by simp [enterConfigure_run hmode, hcontext, hphase]) rfl
  case holdings =>
    exact exec_enterConfigure hacts a (h := .refuse .notEmpty s)
      (by simp [enterConfigure_run hmode, hcontext, hphase, hholds.mpr hheld]) rfl
  case slot =>
    exact exec_enterConfigure hacts a (h := .refuse .notEmpty s)
      (by simp [enterConfigure_run hmode, hcontext, hphase, hempty.mpr hfree, hslot]) rfl
  case taken =>
    exact exec_enterConfigure hacts a
      (h := { answer := .done, state := { s with gate.latch := false, control.mode := .configure } })
      (by simp [enterConfigure_run hmode, hcontext, hphase, hempty.mpr hfree, hslot]) rfl

/-! ### ACK_ALERT (R190) -/

theorem bit_lt (c : Cause) : c.bit < 14 := by
  cases c <;> decide

theorem bit_injective : Function.Injective Cause.bit := by
  have hordered : ∀ c : Cause, allCauses[c.bit]? = some c := fun c => by cases c <;> rfl
  intro c d hbit
  exact Option.some.inj ((hordered c).symm.trans (hbit ▸ hordered d))

/-- The flag of one cause is set at that cause's bit alone. -/
theorem getLsbD_flag (c d : Cause) : (1#14 <<< c.bit).getLsbD d.bit = decide (d = c) := by
  rw [← BitVec.twoPow_eq, BitVec.getLsbD_twoPow, decide_eq_true (bit_lt c), Bool.true_and]
  exact decide_eq_decide.mpr (bit_injective.eq_iff.trans eq_comm)

/-- Each cause goes by its own bit of the operand, but for LOCKOUT, which is never acknowledged. -/
theorem isRaised_ackAlert (s : State) (operand : BitVec 16) (c : Cause) :
    (s.ackAlert operand).state.isRaised c =
      (s.isRaised c && (decide (c = .lockout) || !operand.getLsbD c.bit)) := by
  have hlt := bit_lt c
  simp only [State.ackAlert, State.isRaised, BitVec.getLsbD_and, BitVec.getLsbD_not, BitVec.getLsbD_extractLsb',
    getLsbD_flag, hlt, decide_true, Bool.true_and, Nat.zero_add, Bool.not_and, Bool.not_not]
  rw [Bool.or_comm]

/-- An ACK_ALERT that is acted on is answered DONE, in every mode. -/
theorem exec_ackAlert {s : State} {e : Envelope} {b : Bool} (hacts : s.ActsOn e b) (a : ControlArg) :
    exec (.ackAlert e a) s =
      .next ((s.ackAlert a.operand).state.replies kindControl (controlArgWord a 9) e b .done) := by
  calc exec (.ackAlert e a) s
      = execAckAlert e a s := rfl
    _ = .next (s.receiveControl e a .ackAlert (s.ackAlert a.operand)) := by
        rw [execAckAlert, finishRead_idle s hacts.1.2.2]
    _ = _ := by rw [receiveControl_of_actsOn hacts a _ _ rfl]; rfl

/-- Settles O24: `ackAlert` writes the pending causes and the reset record and no other field, and `isRaised_ackAlert`
reads the causes bit by bit. -/
theorem ackAlertClearsNamedCauses : Obligations.AckAlertClearsNamedCauses := by
  intro s e a b hacts
  exact ⟨(s.ackAlert a.operand).state, exec_ackAlert hacts a, rfl, isRaised_ackAlert s a.operand, rfl⟩

end Sys2Proof.ControlFrames
end

section
/-! All that a step can do to the blocks other than the ring port: one effect for each thing a command does, whatever frame
or line brought it. What every step keeps is proved effect by effect. -/

namespace Sys2Proof.Effects

open Sys2Proof.Machine Sys2Proof.Laws Sys2Proof.WriteWords

/-- `t` is `s` but for the ring port, the count of free values and the queue. -/
def Beside (s t : State) : Prop :=
  ∃ (p : RingPort) (n : Nat) (q : List Instr), t = { s with ring := p, free := n, pending := q }

theorem Beside.refl (s : State) : Beside s s := ⟨s.ring, s.free, s.pending, rfl⟩

theorem Beside.trans {s t u : State} (hst : Beside s t) (htu : Beside t u) : Beside s u := by
  obtain ⟨_, _, _, rfl⟩ := hst
  obtain ⟨p, n, q, rfl⟩ := htu
  exact ⟨p, n, q, rfl⟩

theorem beside_send (s : State) (ws : List Word) : Beside s (s.send ws) := ⟨_, s.free, s.pending, rfl⟩

theorem beside_fillOn (s : State) : Beside s s.fillOn := by
  rw [(fillOn_apart s).1]
  exact ⟨_, _, s.pending, rfl⟩

theorem beside_finishRead (s : State) : Beside s s.finishRead := by
  unfold State.finishRead
  split
  · exact ⟨_, s.free, s.pending, rfl⟩
  · exact .refl s

theorem beside_holding (s : State) (r : Reading) : Beside s (s.holding r) := by
  unfold State.holding
  split <;> exact ⟨_, s.free, s.pending, rfl⟩

/-! ### Frames leave in order (R169) -/

/-- How many frames a state has still to send of those that have arrived: the READ that it is filling. -/
def held (s : State) : Nat := if s.ring.reading = none then 0 else 1

/-- The queue stays, and the frames sent are those sent before, the READ that was being filled where it is no longer, and
at most `n` more, one of which may be a READ that is now being filled. -/
structure Flows (n : Nat) (s t : State) : Prop where
  pending : t.pending = s.pending
  sent : ∃ ws, ws.length + held t ≤ held s + n ∧ t.ring.sent = s.ring.sent ++ ws

theorem flows_of_traffic {s t : State} (hreading : t.ring.reading = s.ring.reading) (hsent : t.ring.sent = s.ring.sent)
    (hpending : t.pending = s.pending) : Flows 0 s t :=
  ⟨hpending, [], by simp [held, hreading], by simp [hsent]⟩

theorem Flows.refl (s : State) : Flows 0 s s := flows_of_traffic rfl rfl rfl

theorem Flows.trans {s t u : State} {m n : Nat} (hst : Flows m s t) (htu : Flows n t u) : Flows (m + n) s u := by
  obtain ⟨ws, hws, hsent⟩ := hst.sent
  obtain ⟨vs, hvs, hsent'⟩ := htu.sent
  exact ⟨htu.pending.trans hst.pending, ws ++ vs, by simp only [List.length_append]; omega,
    by rw [hsent', hsent, List.append_assoc]⟩

/-- What flows does not look at the other blocks. -/
theorem Flows.after {s t u : State} {n : Nat} (h : Flows n t u) (hreading : t.ring.reading = s.ring.reading)
    (hsent : t.ring.sent = s.ring.sent) (hpending : t.pending = s.pending) : Flows n s u := by
  obtain ⟨ws, hle, hws⟩ := h.sent
  exact ⟨h.pending.trans hpending, ws, by simpa only [held, hreading] using hle, by rw [hws, hsent]⟩

theorem flows_send (s : State) (ws : List Word) : Flows 1 s (s.send ws) :=
  ⟨rfl, [ws], (Nat.add_comm 1 (held s)).le, rfl⟩

theorem flows_holding (s : State) (r : Reading) : Flows 1 s (s.holding r) := by
  unfold State.holding
  split_ifs
  · exact ⟨rfl, [_], by simp [held, State.send], rfl⟩
  · exact ⟨rfl, [], by simp [held], by simp⟩

/-- A READ that takes words takes the place of the one that was being filled. -/
theorem flows_holding_of_reading {s : State} (h : s.ring.reading ≠ none) (r : Reading) : Flows 0 s (s.holding r) := by
  unfold State.holding
  split_ifs
  · exact ⟨rfl, [_], by simp [held, State.send, h], rfl⟩
  · exact ⟨rfl, [], by simp [held, h], by simp⟩

theorem flows_fillOn (s : State) : Flows 0 s s.fillOn := by
  cases hr : s.ring.reading with
  | none =>
    rw [fillOn_idle s hr]
    exact .refl s
  | some r =>
    obtain ⟨m, -, -, heq⟩ := fillOn_cases s r hr
    rw [heq, State.tookWords]
    exact (flows_holding_of_reading (s := { s with free := s.free + 1 }) (by simp [hr]) _).after rfl rfl rfl

theorem flows_finishRead (s : State) : Flows 0 s s.finishRead := by
  unfold State.finishRead
  split
  next r hr => exact ⟨rfl, [_], by simp [held, State.send, hr], rfl⟩
  · exact .refl s

/-- What lies between two states beside an effect: the ring port, the free values and the queue may differ, and frames
flow. -/
structure Conveys (n : Nat) (s t : State) : Prop where
  beside : Beside s t
  flows : Flows n s t

theorem Conveys.refl (s : State) : Conveys 0 s s := ⟨.refl s, .refl s⟩

theorem Conveys.trans {s t u : State} {m n : Nat} (hst : Conveys m s t) (htu : Conveys n t u) : Conveys (m + n) s u :=
  ⟨hst.beside.trans htu.beside, hst.flows.trans htu.flows⟩

theorem conveys_send (s : State) (ws : List Word) : Conveys 1 s (s.send ws) := ⟨beside_send s ws, flows_send s ws⟩

theorem conveys_fillOn (s : State) : Conveys 0 s s.fillOn := ⟨beside_fillOn s, flows_fillOn s⟩

theorem conveys_finishRead (s : State) : Conveys 0 s s.finishRead := ⟨beside_finishRead s, flows_finishRead s⟩

/-- The stores of the writable spaces, each with the words of its space and whether it is a topology table, which only
CONFIGURE writes (R14, R179). -/
inductive SpaceStore : (State → Nat → Word → State) → Nat → Bool → Prop
  | relayMap : SpaceStore storeRelayMap 1024 true
  | cls : SpaceStore storeClass 64 true
  | ports : SpaceStore storePort 32 true
  | sites : SpaceStore storeSite 8 true
  | pins : SpaceStore storePin 256 true
  | portMap : SpaceStore storePortMap 128 true
  | directory : SpaceStore storeDir 256 false
  | entries : SpaceStore storeEntry 2048 false
  | wear : SpaceStore storeWear 2048 false
  | config : SpaceStore storeConfig 6 false

/-- What an event of the coil chain unit does, where its cause is in effect. -/
inductive ChainEffect (s : State) : State → Prop
  | awaitsWriteEcho (c : Fin 8) (n : Nat) : s.exchange c = .writing n .shifting →
      ChainEffect s (s.setExchange c (.writing n .echoWait))
  | awaitsSenseEcho (c : Fin 8) (n : Nat) : s.exchange c = .sensing n .shifting →
      ChainEffect s (s.setExchange c (.sensing n .echoWait))
  | latches (c : Fin 8) (n : Nat) : s.exchange c = .writing n .echoWait → ChainEffect s (s.chainLatches c)
  | failsWrite (c : Fin 8) (n : Nat) : s.exchange c = .writing n .echoWait → ChainEffect s (s.writeAttemptFails c n)
  | senses (c : Fin 8) (n : Nat) (made : Image) : s.exchange c = .sensing n .echoWait →
      ChainEffect s (s.senseCompletes c made)
  | failsSense (c : Fin 8) (n : Nat) : s.exchange c = .sensing n .echoWait → ChainEffect s (s.senseAttemptFails c n)
  | endsTimedWait (w : Wave) : s.coil.wave = some w → w.stage = .timedWait → ChainEffect s (s.endTimedWait w)
  | endsInterval (c : Fin 8) : s.exchange c = .senseInterval → ChainEffect s (s.setExchange c (.sensing 1 .shifting))
  | reachesDeadline : ChainEffect s (s.senseProgress true)

/-- All that a command can do to the blocks other than the ring port. -/
inductive Effect (s : State) : State → Prop
  | stays : Effect s s
  | accepts (a : StepArg) (mode : StepMode) (action : Action) : s.control.mode = .run → s.resolver.context = none →
      Effect s { s with resolver.context := some (s.contextFor a mode action) }
  | stores {store : State → Nat → Word → State} {size : Nat} {topology : Bool} (start : Nat) (ws : List Word) :
      SpaceStore store size topology → (topology = true → s.control.mode = .configure) → Fits size start ws →
      Effect s (storeWords store s start ws)
  | takesNotices (n : Nat) : Effect s { s with wear.notices := s.wear.notices.drop n }
  | validates : Effect s { s with topology.validation := s.validate }
  | entersRun : s.control.resetting = none → s.control.mode = .configure → s.validate.outcome = .ok →
      Effect s { s with topology.validation := s.validate, control.mode := .run }
  | entersConfigure : s.resolver.context = none → s.engine.phase = .idle →
      s.engine.holdings.any (fun e => e.2.isSome) = false → s.gate.slot = none → s.control.mode = .run →
      Effect s { s with gate.latch := false, control.mode := .configure }
  | setsGate (m : GateMode) : s.control.mode ≠ .lockedOut → Effect s (s.setGateMode m)
  | discards : Effect s { s with gate.slot := none, gate.latch := false }
  | abortsGuard : s.engine.phase = .guarding → Effect s (s.suspend .aborted)
  | notesAbort : s.engine.phase = .opening ∨ s.engine.phase = .closing → Effect s { s with engine.abortNoted := true }
  | resumes (t : Transition) : s.engine.phase = .suspended → s.engine.transition = some t →
      Effect s (s.resumeTransition t)
  | rollsBack (t : Transition) : s.engine.phase = .suspended → s.engine.transition = some t → t.kind = .stepped →
      Effect s (s.startRollback t)
  | safeOpens : s.control.mode = .run → s.engine.phase = .idle ∨ s.engine.phase = .suspended →
      Effect s s.startSafeOpen
  | acknowledges (operand : BitVec 16) : Effect s (s.ackAlert operand).state
  | raisesLinkCrc : Effect s (s.raise .linkCrc)
  | movesLines (low lost timer : Bool) :
      Effect s { s with control.rstnLow := low, control.lockLost := lost, control.linkTimer := timer }
  | resets (low timer : Bool) (source : ResetSource) (lost : Bool) :
      Effect s (State.beginReset { s with control.rstnLow := low, control.linkTimer := timer } source lost)
  | recordsLinkLoss (r : ResetRun) : s.control.resetting = some r →
      Effect s { s with control.linkTimer := false, control.resetting := some { r with linkLost := true } }
  | endsReset (r : ResetRun) (straps : BitVec 4) : s.control.resetting = some r → Effect s (s.finishReset r straps)
  | triggers : Effect s s.trigger
  | satisfiesGuard : s.engine.phase = .guarding → Effect s s.advance
  | bypassesGuard (t : Transition) : s.engine.phase = .guarding → s.engine.transition = some t →
      Effect s (s.bypassGuard t)
  | failsGuard : s.engine.phase = .guarding → Effect s ((s.fault .guardTimeout .guard none []).suspend .fault)
  | resolves (ctx : Resolution) : s.resolver.context = some ctx → Effect s (s.completeResolution ctx)
  | chain {u : State} : ChainEffect s u → Effect s u

/-- What a command leaves: an effect, with changes of the ring port and the free values before and after, which send at
most one frame besides the READ that was being filled. -/
def Leads (s t : State) : Prop := ∃ s' u k m, Conveys k s s' ∧ Effect s' u ∧ Conveys m u t ∧ k + m ≤ 1

theorem Conveys.leads {s t : State} {n : Nat} (h : Conveys n s t) (hn : n ≤ 1) : Leads s t :=
  ⟨s, s, 0, n, .refl s, .stays, h, by omega⟩

theorem leads_self (s : State) : Leads s s := (Conveys.refl s).leads (by decide)

theorem leads_send (s : State) (ws : List Word) : Leads s (s.send ws) := (conveys_send s ws).leads (by decide)

/-! ### Frames -/

/-- A frame that is received does no more than its handling does where it is acted on. -/
theorem leads_receive {s : State} {kind : Byte} {arg : Word} {e : Envelope} {handle : Bool → Handled × Envelope}
    (h : ∀ b, s.disposition e = .act b → Effect s (handle b).1.state) : Leads s (s.receive kind arg e handle) := by
  obtain heq | ⟨ws, heq⟩ | ⟨b, ws, hact, heq⟩ := receive_cases s kind arg e handle
  · rw [heq]
    exact leads_self s
  · rw [heq]
    exact leads_send s ws
  · rw [heq]
    exact ⟨s, _, 0, 1, .refl s, h b hact, conveys_send _ ws, by decide⟩

/-- A frame is preceded by the end of the READ that was being filled. -/
theorem leads_finishRead {s t : State} (h : Leads s.finishRead t) : Leads s t := by
  obtain ⟨s', u, k, m, hs, hu, ht, hle⟩ := h
  exact ⟨s', u, 0 + k, m, (conveys_finishRead s).trans hs, hu, ht, by omega⟩

/-- What a handling answers and leaves: DONE or ACCEPTED with an effect, BUSY or REFUSED with a reason of its own and the state
as it was, and for an ENTER_RUN (`records`) also REFUSED with the VALIDATION record written (R17, R176). -/
inductive Answers (records : Bool) (s : State) : Handled → Prop
  | takes {a : Answer} {u : State} : a.takes = true → Effect s u → Answers records s { answer := a, state := u }
  | busy (r : Reason) : 13 ≤ r.code.toNat → Answers records s (.busy r s)
  | refuses (r : Reason) : r.code.toNat ≤ 12 → Answers records s (.refuse r s)
  | invalid : records = true →
      Answers records s { answer := .refused .invalidTables, state := { s with topology.validation := s.validate } }

theorem Answers.effect {records : Bool} {s : State} {h : Handled} (ha : Answers records s h) : Effect s h.state := by
  cases ha with
  | takes _ hu => exact hu
  | busy | refuses => exact .stays
  | invalid => exact .validates

theorem leads_receivePlain {s : State} {kind : Byte} {arg : Word} {e : Envelope} {h : Handled}
    (heffect : Effect s h.state) : Leads s (s.receivePlain kind arg e h) :=
  leads_receive fun _ _ => heffect

theorem answers_acceptStep (s : State) (a : StepArg) (action : Action) : Answers false s (s.acceptStep a action) := by
  unfold State.acceptStep
  split
  · exact .refuses _ (by decide)
  · exact .refuses _ (by decide)
  next hmode =>
    split
    · exact .refuses _ (by decide)
    next mode _ =>
      split_ifs with hcontext
      · exact .busy _ (by decide)
      · exact .busy _ (by decide)
      · exact .takes rfl (.accepts a mode action hmode (by simpa using hcontext))

theorem answers_refuseAction (s : State) : Answers false s s.refuseAction := by
  unfold State.refuseAction
  split <;> exact .refuses _ (by decide)

theorem answers_writeTopology {s : State} {sp : Space} {start : Nat} {ws : List Word} {storable : Nat → Word → Bool}
    {store : State → Nat → Word → State} (hstore : SpaceStore store sp.size true) :
    Answers false s (s.writeTopology sp start ws storable store) := by
  unfold State.writeTopology
  split_ifs with hmode hspace
  · exact .refuses _ (by decide)
  · exact .refuses _ (by decide)
  · exact .refuses _ (by decide)
  · exact .takes rfl
      (.stores start ws hstore (fun _ => not_not.mp hmode) ((inSpace_iff sp start ws).mp (by simpa using hspace)))

theorem answers_writeStore {s : State} {sp : Space} {start : Nat} {ws : List Word} {storable : Nat → Word → Bool}
    {inUse : SetInUse → Nat → Bool} {store : State → Nat → Word → State} (hstore : SpaceStore store sp.size false) :
    Answers false s (s.writeStore sp start ws storable inUse store) := by
  unfold State.writeStore
  split_ifs with hspace
  · exact .refuses _ (by decide)
  · exact .refuses _ (by decide)
  · have hfits : Fits sp.size start ws := (inSpace_iff sp start ws).mp (by simpa using hspace)
    split
    · split_ifs
      · exact .takes rfl (.stores start ws hstore (by simp) hfits)
      · exact .busy _ (by decide)
    · exact .takes rfl (.stores start ws hstore (by simp) hfits)

theorem answers_writeWear (s : State) (start : Nat) (ws : List Word) : Answers false s (s.writeWear start ws) := by
  unfold State.writeWear
  split_ifs with _ hspace
  · exact .refuses _ (by decide)
  · exact .refuses _ (by decide)
  · exact .refuses _ (by decide)
  · exact .busy _ (by decide)
  · exact .busy _ (by decide)
  · exact .takes rfl (.stores start ws .wear (by simp) ((inSpace_iff .wear start ws).mp (by simpa using hspace)))

theorem answers_writeConfig (s : State) (start : Nat) (ws : List Word) : Answers false s (s.writeConfig start ws) := by
  unfold State.writeConfig
  split_ifs with hspace
  · exact .refuses _ (by decide)
  · exact .takes rfl (.stores start ws .config (by simp) ((inSpace_iff .config start ws).mp (by simpa using hspace)))

theorem answers_write (s : State) (space : Byte) :
    Answers false s
      (match Space.ofCode space with
        | none => .refuse .badSpace s
        | some _ => .refuse .readOnly s) := by
  split <;> exact .refuses _ (by decide)

theorem answers_enterRun {s : State} (hreset : s.control.resetting = none) : Answers true s s.enterRun := by
  unfold State.enterRun
  split
  · exact .refuses _ (by decide)
  · exact .takes rfl .stays
  next hmode =>
    dsimp only
    split_ifs with hok
    · exact .takes rfl (.entersRun hreset hmode hok)
    · exact .invalid rfl

theorem answers_enterConfigure (s : State) : Answers false s s.enterConfigure := by
  unfold State.enterConfigure
  split
  · exact .refuses _ (by decide)
  · exact .takes rfl .stays
  next hmode =>
    split_ifs with hcontext hphase hheld hslot
    · exact .busy _ (by decide)
    · exact .refuses _ (by decide)
    · exact .refuses _ (by decide)
    · exact .refuses _ (by decide)
    · exact .takes rfl (.entersConfigure (by simpa using hcontext) (not_not.mp hphase) (by simpa using hheld)
        (by simpa using hslot) hmode)

/-- An operation that LOCKED_OUT refuses answers for itself in the other modes. -/
theorem answers_unlessLocked {s : State} {h : Handled} (ha : s.control.mode ≠ .lockedOut → Answers false s h) :
    Answers false s (s.unlessLocked h) := by
  unfold State.unlessLocked
  split_ifs with hmode
  · exact .refuses _ (by decide)
  · exact ha hmode

theorem answers_setGate (s : State) (operand : BitVec 16) : Answers false s (s.setGate operand) := by
  refine answers_unlessLocked fun hmode => ?_
  split
  · exact .refuses _ (by decide)
  · exact .takes rfl (.setsGate _ hmode)

theorem answers_discardStaged (s : State) : Answers false s s.discardStaged :=
  answers_unlessLocked fun _ => .takes rfl .discards

theorem answers_abort (s : State) : Answers false s s.abort := by
  refine answers_unlessLocked fun _ => ?_
  split
  next hphase => exact .takes rfl (.abortsGuard hphase)
  next hphase => exact .takes rfl (.notesAbort (.inl hphase))
  next hphase => exact .takes rfl (.notesAbort (.inr hphase))
  · exact .refuses _ (by decide)
  · exact .refuses _ (by decide)
  · exact .refuses _ (by decide)

theorem answers_resume (s : State) : Answers false s s.resume := by
  refine answers_unlessLocked fun _ => ?_
  split
  next t hphase ht => exact .takes rfl (.resumes t hphase ht)
  · exact .refuses _ (by decide)

theorem answers_rollback (s : State) : Answers false s s.rollback := by
  refine answers_unlessLocked fun _ => ?_
  split
  next t hphase ht =>
    split_ifs with hkind
    · exact .takes rfl (.rollsBack t hphase ht hkind)
    · exact .refuses _ (by decide)
  · exact .refuses _ (by decide)

theorem answers_safeOpen (s : State) : Answers false s s.safeOpen := by
  unfold State.safeOpen
  split
  · exact .refuses _ (by decide)
  · exact .refuses _ (by decide)
  next hmode =>
    split
    · exact .busy _ (by decide)
    · exact .busy _ (by decide)
    · exact .busy _ (by decide)
    next hphase => exact .takes rfl (.safeOpens hmode (.inl hphase))
    next hphase => exact .takes rfl (.safeOpens hmode (.inr hphase))
    · exact .refuses _ (by decide)

theorem resetting_of_act {s : State} {e : Envelope} {b : Bool} (h : s.disposition e = .act b) :
    s.control.resetting = none := by
  unfold State.disposition at h
  cases hreset : s.control.resetting with
  | none => rfl
  | some r => cases hlost : s.control.lockLost <;> simp [hreset, hlost] at h

theorem leads_read (s : State) (e : Envelope) (a : ReadArg) (space : Byte) {t : State}
    (h : execRead e a space s = .next t) : Leads s t := by
  apply leads_finishRead
  unfold execRead at h
  dsimp only at h
  have refused : ∀ r, Leads s.finishRead (s.finishRead.receiveRead e a space (.refuse r s.finishRead, e)) :=
    fun r => leads_receive fun b _ => by cases b <;> exact .stays
  split at h
  · split at h
    · obtain ⟨m, -, -, htake⟩ := takeRead_cases s.finishRead e a space ‹_› ‹_›
      cases h
      rw [htake]
      refine Conveys.leads (n := 0 + 1) (Conveys.trans ?_ ⟨beside_holding _ _, flows_holding _ _⟩) (by decide)
      exact ⟨⟨_, _, s.finishRead.pending, rfl⟩, flows_of_traffic rfl rfl rfl⟩
    · cases h
      exact leads_receive fun b _ => by
        cases b
        · exact .takesNotices _
        · exact .stays
    · cases h
      exact refused _
  all_goals
    cases h
    exact refused _

theorem leads_softReset (s : State) (e : Envelope) (a : ControlArg) {t : State}
    (h : execSoftReset e a s = .next t) : Leads s t := by
  apply leads_finishRead
  unfold execSoftReset at h
  dsimp only at h
  have answers : ∃ n ≤ 1, Conveys n s.finishRead
      (s.finishRead.receiveControl e a .softReset { answer := .done, state := s.finishRead }) := by
    unfold State.receiveControl State.receivePlain
    obtain heq | ⟨ws, heq⟩ | ⟨b, ws, -, heq⟩ := receive_cases s.finishRead kindControl
      (controlArgWord a Operation.softReset.code) e (fun _ => ({ answer := .done, state := s.finishRead }, e))
    · rw [heq]
      exact ⟨0, by decide, .refl _⟩
    · rw [heq]
      exact ⟨1, by decide, conveys_send _ ws⟩
    · rw [heq]
      exact ⟨1, by decide, conveys_send _ ws⟩
  obtain ⟨n, hn, hconveys⟩ := answers
  split at h
  · cases h
    exact ⟨_, _, n, 0, hconveys, .resets _ _ .softFrame false, .refl _, hn⟩
  all_goals
    cases h
    exact hconveys.leads hn

/-! ### Events -/

/-- An event has its effect, and the READ being filled then takes words. -/
theorem leads_fillOn {s u : State} (h : Effect s u) : Leads s u.fillOn :=
  ⟨s, u, 0, 0, .refl s, h, conveys_fillOn u, by decide⟩

theorem leads_next_fillOn {s u t : State} (h : Effect s u)
    (heq : (Host.Outcome.next u.fillOn : Host.Outcome State Fault Refusal) = .next t) : Leads s t := by
  cases heq
  exact leads_fillOn h

theorem leads_guardTimeout {s t : State} (h : execGuardTimeout s = .next t) : Leads s t := by
  refine leads_next_fillOn ?_ h
  split
  next t g hphase ht hg =>
    split_ifs
    · exact .bypassesGuard t hphase ht
    · exact .failsGuard hphase
  · exact .stays

theorem leads_shiftComplete {c : Fin 8} {s t : State} (h : execShiftComplete c s = .next t) : Leads s t := by
  refine leads_next_fillOn ?_ h
  split
  next n hx => exact .chain (.awaitsWriteEcho c n hx)
  next n hx => exact .chain (.awaitsSenseEcho c n hx)
  all_goals exact .stays

theorem leads_writeEcho {c : Fin 8} {echo : Image} {s t : State} (h : execWriteEcho c echo s = .next t) :
    Leads s t := by
  refine leads_next_fillOn ?_ h
  split
  next n hx =>
    split_ifs
    · exact .chain (.latches c n hx)
    · exact .chain (.failsWrite c n hx)
  all_goals exact .stays

theorem leads_senseEcho {c : Fin 8} {echo made : Image} {s t : State} (h : execSenseEcho c echo made s = .next t) :
    Leads s t := by
  refine leads_next_fillOn ?_ h
  split
  next n hx =>
    split_ifs
    · exact .chain (.senses c n made hx)
    · exact .chain (.failsSense c n hx)
  all_goals exact .stays

theorem leads_noEcho {c : Fin 8} {s t : State} (h : execNoEcho c s = .next t) : Leads s t := by
  refine leads_next_fillOn ?_ h
  split
  next n hx => exact .chain (.failsWrite c n hx)
  next n hx => exact .chain (.failsSense c n hx)
  all_goals exact .stays

theorem leads_timedWaitEnd {s t : State} (h : execTimedWaitEnd s = .next t) : Leads s t := by
  refine leads_next_fillOn ?_ h
  split
  next w hw =>
    split
    next hstage => exact .chain (.endsTimedWait w hw hstage)
    all_goals exact .stays
  · exact .stays

theorem leads_senseIntervalEnd {c : Fin 8} {s t : State} (h : execSenseIntervalEnd c s = .next t) : Leads s t := by
  refine leads_next_fillOn ?_ h
  split
  next hx =>
    split_ifs
    · exact .stays
    · exact .chain (.endsInterval c hx)
  all_goals exact .stays

theorem leads_qackHigh {s t : State} (h : execQackHigh s = .next t) : Leads s t := by
  refine leads_next_fillOn ?_ h
  split_ifs with hphase
  · exact .satisfiesGuard hphase
  · exact .stays

theorem leads_resolutionComplete {s t : State} (h : execResolutionComplete s = .next t) : Leads s t := by
  refine leads_next_fillOn ?_ h
  split
  next ctx hctx => exact .resolves ctx hctx
  · exact .stays

theorem leads_symbolLockLost {s t : State} (h : execSymbolLockLost s = .next t) : Leads s t := by
  refine leads_next_fillOn ?_ h
  split_ifs
  · exact .stays
  · exact .movesLines s.control.rstnLow true true

theorem leads_linkLoss {s t : State} (h : execLinkLoss s = .next t) : Leads s t := by
  refine leads_next_fillOn ?_ h
  split_ifs
  · split
    next r hr => exact .recordsLinkLoss r hr
    · exact .resets s.control.rstnLow false .linkLoss false
  · exact .stays

theorem leads_resetEnd {straps : BitVec 4} {s t : State} (h : execResetEnd straps s = .next t) : Leads s t := by
  refine leads_next_fillOn ?_ h
  split
  next r hr =>
    split_ifs
    · exact .endsReset r straps hr
    · exact .stays
  · exact .stays

theorem leads_rstnLow {s t : State} (h : execRstnLow s = .next t) : Leads s t := by
  cases h
  have hcount : Conveys 0 s { s with free := s.free + 1 } :=
    ⟨⟨s.ring, _, s.pending, rfl⟩, flows_of_traffic rfl rfl rfl⟩
  exact ⟨_, _, 0, 0, hcount, .resets true s.control.linkTimer s.rstnSource s.linkLostInReset, conveys_fillOn _, by decide⟩

/-! ### Frames that are not acted on -/

theorem leads_poll {e : Envelope} {arg : Word} {s t : State} (h : execPoll e arg s = .next t) : Leads s t := by
  apply leads_finishRead
  cases h
  split_ifs
  · exact leads_self _
  all_goals exact leads_send _ _

theorem leads_frameCrcFail {f : Frame} {s t : State} (h : execFrameCrcFail f s = .next t) : Leads s t := by
  apply leads_finishRead
  cases h
  split_ifs
  · exact leads_self _
  · exact leads_send _ _
  · exact ⟨_, _, 1, 0, conveys_send _ _, .raisesLinkCrc, .refl _, by decide⟩

theorem leads_shortFrame {ws : List Word} {s t : State} (h : execShortFrame ws s = .next t) : Leads s t := by
  apply leads_finishRead
  cases h
  split_ifs
  · exact leads_self _
  · exact leads_send _ _
  · exact ⟨_, _, 1, 0, conveys_send _ _, .raisesLinkCrc, .refl _, by decide⟩

theorem leads_forward (s : State) (ws : List Word) : Leads s (s.finishRead.forward ws) := by
  apply leads_finishRead
  unfold State.forward
  split_ifs
  · exact leads_self _
  · exact leads_send _ _

/-! ### Commands -/

/-- Every command leaves one effect. -/
theorem leads_exec {c : Instr} {s t : State} (h : exec c s = .next t) : Leads s t := by
  cases c with
  | stepCheck e a | stepStage e a | stepApply e a =>
    cases h
    exact leads_finishRead (leads_receivePlain (answers_acceptStep _ a _).effect)
  | stepBadAction e a =>
    cases h
    exact leads_finishRead (leads_receivePlain (answers_refuseAction _).effect)
  | writeRelayMap e a =>
    cases h
    exact leads_finishRead (leads_receivePlain (answers_writeTopology .relayMap).effect)
  | writeClass e a =>
    cases h
    exact leads_finishRead (leads_receivePlain (answers_writeTopology .cls).effect)
  | writePorts e a =>
    cases h
    exact leads_finishRead (leads_receivePlain (answers_writeTopology .ports).effect)
  | writeSiteEnable e a =>
    cases h
    exact leads_finishRead (leads_receivePlain (answers_writeTopology .sites).effect)
  | writePinMap e a =>
    cases h
    exact leads_finishRead (leads_receivePlain (answers_writeTopology .pins).effect)
  | writePortMap e a =>
    cases h
    exact leads_finishRead (leads_receivePlain (answers_writeTopology .portMap).effect)
  | writeRouteDir e a =>
    cases h
    exact leads_finishRead (leads_receivePlain (answers_writeStore .directory).effect)
  | writeEntries e a =>
    cases h
    exact leads_finishRead (leads_receivePlain (answers_writeStore .entries).effect)
  | writeWear e a =>
    cases h
    exact leads_finishRead (leads_receivePlain (answers_writeWear _ _ _).effect)
  | writeConfig e a =>
    cases h
    exact leads_finishRead (leads_receivePlain (answers_writeConfig _ _ _).effect)
  | write e a space =>
    cases h
    exact leads_finishRead (leads_receivePlain (answers_write _ space).effect)
  | read e a space => exact leads_read s e a space h
  | readNotices e a =>
    cases h
    refine leads_finishRead (leads_receive fun b _ => ?_)
    cases b
    · exact .takesNotices _
    · exact .stays
  | enterRun e a =>
    cases h
    exact leads_finishRead (leads_receive fun _ hact => (answers_enterRun (resetting_of_act hact)).effect)
  | enterConfigure e a =>
    cases h
    exact leads_finishRead (leads_receivePlain (answers_enterConfigure _).effect)
  | setGate e a =>
    cases h
    exact leads_finishRead (leads_receivePlain (answers_setGate _ _).effect)
  | abort e a =>
    cases h
    exact leads_finishRead (leads_receivePlain (answers_abort _).effect)
  | resume e a =>
    cases h
    exact leads_finishRead (leads_receivePlain (answers_resume _).effect)
  | rollback e a =>
    cases h
    exact leads_finishRead (leads_receivePlain (answers_rollback _).effect)
  | safeOpen e a =>
    cases h
    exact leads_finishRead (leads_receivePlain (answers_safeOpen _).effect)
  | discardStaged e a =>
    cases h
    exact leads_finishRead (leads_receivePlain (answers_discardStaged _).effect)
  | ackAlert e a =>
    cases h
    exact leads_finishRead (leads_receivePlain (.acknowledges _))
  | softReset e a => exact leads_softReset s e a h
  | controlBadOperation e a operation =>
    cases h
    exact leads_finishRead (leads_receivePlain .stays)
  | poll e arg => exact leads_poll h
  | frameCrcFail f => exact leads_frameCrcFail h
  | shortFrame words => exact leads_shortFrame h
  | frameNotForThisController f =>
    cases h
    exact leads_forward s _
  | frameDuringReset words =>
    cases h
    exact leads_forward s _
  | resolutionComplete => exact leads_resolutionComplete h
  | trigEdge => exact leads_next_fillOn .triggers h
  | qackHigh => exact leads_qackHigh h
  | guardTimeout => exact leads_guardTimeout h
  | shiftComplete c => exact leads_shiftComplete h
  | writeEcho c echo => exact leads_writeEcho h
  | senseEcho c echo made => exact leads_senseEcho h
  | noEcho c => exact leads_noEcho h
  | staleEcho c echo => exact leads_next_fillOn .stays h
  | timedWaitEnd => exact leads_timedWaitEnd h
  | senseIntervalEnd c => exact leads_senseIntervalEnd h
  | senseDeadline => exact leads_next_fillOn (.chain .reachesDeadline) h
  | powerOn => exact leads_next_fillOn (.resets s.control.rstnLow s.control.linkTimer .powerOn false) h
  | rstnLow => exact leads_rstnLow h
  | rstnHigh => exact leads_next_fillOn (.movesLines false s.control.lockLost s.control.linkTimer) h
  | symbolLockLost => exact leads_symbolLockLost h
  | symbolLockReturn => exact leads_next_fillOn (.movesLines s.control.rstnLow false false) h
  | linkLoss => exact leads_linkLoss h
  | resetEnd straps => exact leads_resetEnd h

/-- So does a step, on an empty queue or with a command at its front, if the queue it takes the command from is left out. -/
theorem leads_step {s t : State} (h : step s = .next t) : ∃ s' u, Beside s s' ∧ Effect s' u ∧ Beside u t := by
  unfold step at h
  split at h
  · cases h
    exact ⟨s, s, .refl s, .stays, beside_finishRead s⟩
  next c rest _ =>
    obtain ⟨s', u, _, _, hs, hu, ht, -⟩ := leads_exec h
    have hqueue : Beside s { s with pending := rest } := ⟨s.ring, s.free, rest, rfl⟩
    exact ⟨s', u, hqueue.trans hs.beside, hu, ht.beside⟩

/-- What every effect keeps, and a change of the ring port, the free values and the queue keeps too, every step keeps. -/
theorem step_keeps {P : State → Prop} (hbeside : ∀ s t, Beside s t → P s → P t)
    (heffect : ∀ s t, Effect s t → P s → P t) {s t : State} (h : step s = .next t) (hs : P s) : P t := by
  obtain ⟨s', u, hss, hu, ht⟩ := leads_step h
  exact hbeside _ _ ht (heffect _ _ hu (hbeside _ _ hss hs))

end Sys2Proof.Effects
end

section
/-! How a property of states is kept by every effect: one rule for each thing the engine, the coil chain unit and the other
blocks do, from which the operations that are built of them follow once for all properties. -/

namespace Sys2Proof.Kept

open Sys2Proof.Machine Sys2Proof.Laws Sys2Proof.Effects

/-! ### The states between two operations of one event -/

/-- A guard wait begun (R104). -/
def guarding (s : State) (t : Transition) : State :=
  { s with
    engine.phase := .guarding, engine.quiet := t.guarded,
    engine.guardWait := some { timeout := s.control.params.guardTimeout, policy := s.control.params.policy } }

/-- A wave begun in the phase it belongs to (R103, R108). -/
def waving (s : State) (t : Transition) (close : Bool) : State :=
  State.formWave { s with engine.phase := if close then .closing else .opening, engine.guardWait := none } close
    t.waveLimit

/-- A plan taken from the slot: R102 before its first phase. -/
def planTaken (s : State) (p : Plan) : State :=
  { s with
    engine.fault := .clear,
    engine.current := s.engine.current + 1,
    engine.transition := some
      { kind := .stepped, number := s.engine.current + 1, waveLimit := p.waveLimit, guarded := p.guarded,
        stop := p.stop, hot := false },
    engine.baseMap := s.engine.holdings,
    engine.holdings := plannedHoldings s.engine.holdings p,
    engine.pendingOpen := p.opens,
    engine.pendingClose := p.closes.map Prod.fst,
    gate.slot := none }

/-- A suspended transition taken up again: R134 before its first phase. -/
def resumed (s : State) (t : Transition) : State :=
  { s with
    engine.suspension := .none, engine.suspendedPhase := none, engine.transition := some { t with hot := false } }

/-- A ROLLBACK taken: R136 before its first phase. -/
def rolledBack (s : State) (t : Transition) : State :=
  { s with
    engine.suspension := .none, engine.suspendedPhase := none,
    engine.current := s.engine.current + 1,
    engine.transition := some
      { kind := .rollback, number := s.engine.current + 1, waveLimit := t.waveLimit, guarded := t.guarded,
        stop := false, hot := false },
    engine.holdings := s.engine.baseMap,
    engine.pendingOpen := s.rollbackOpens,
    engine.pendingClose := s.rollbackCloses }

/-- A SAFE_OPEN taken: R137 before its first phase. -/
def safeOpened (s : State) : State :=
  { s with
    engine.suspension := .none, engine.suspendedPhase := none,
    engine.current := s.engine.current + 1,
    engine.transition := some
      { kind := .safeOpen, number := s.engine.current + 1, waveLimit := s.control.params.waveLimit,
        guarded := s.allGuarded, stop := false, hot := false },
    engine.holdings := [],
    engine.pendingOpen := s.safeOpens,
    engine.pendingClose := [] }

/-- A transition completed, before its causes are raised and the gate is told (R113). -/
def ended (s : State) (t : Transition) : State :=
  { s with
    engine.quiet := 0, engine.guardWait := none, engine.lastCompleted := t.number, engine.baseMap := [],
    engine.transition := none, engine.phase := .idle, engine.abortNoted := false }

/-- A transition suspended, before SUSPEND is raised and the gate halts (R130). -/
def suspended (s : State) (r : SuspendReason) : State :=
  { s with
    engine.quiet := 0, engine.guardWait := none, engine.suspension := r,
    engine.suspendedPhase := some s.engine.phase.faultPhase, engine.abortNoted := false,
    engine.phase := .suspended }

/-- The wave gone and every chain IDLE (R92). -/
def waveless (s : State) : State := { s with coil.wave := none, coil.exchanges := [] }

/-- Another resolver. -/
def withResolver (s : State) (v : Resolver) : State := { s with resolver := v }

/-- The resolver IDLE, with the record of the resolution it cancels (R63). -/
def cancelled (s : State) (ctx : Resolution) : State :=
  withResolver s { context := none, result := cancelledResult ctx }

/-- A plan placed in the slot as its resolution ends (R58, R59). -/
def staged (s : State) (p : Plan) (r : ResultRecord) : State :=
  { s with resolver := { context := none, result := r }, gate.slot := some { p with bound := s.gate.latch } }

/-- The latched trigger taken from the latch (R149). -/
def unlatched (s : State) : State := { s with gate.latch := false }

/-- Exchange states put one after another. -/
def exchangesSet (t : Table Exchange) (f : Nat → Exchange) (chains : List Nat) : Table Exchange :=
  chains.foldl (fun t c => t.put .idle c (f c)) t

/-- `w'` is `w` with other statuses, where no relay that is confirmed loses that status, and with another stage. -/
structure Refines (w w' : Wave) : Prop where
  close : w'.close = w.close
  relays : w'.relays.map WaveRelay.relay = w.relays.map WaveRelay.relay
  unconfirmed : ∀ x ∈ w'.relays, x.status ≠ .confirmed → ∃ y ∈ w.relays, y.relay = x.relay ∧ y.status ≠ .confirmed

theorem Refines.refl (w : Wave) : Refines w w := ⟨rfl, rfl, fun x hx h => ⟨x, hx, rfl, h⟩⟩

theorem Refines.trans {u v w : Wave} (huv : Refines u v) (hvw : Refines v w) : Refines u w where
  close := hvw.close.trans huv.close
  relays := hvw.relays.trans huv.relays
  unconfirmed x hx h := by
    obtain ⟨y, hy, hrelay, hstatus⟩ := hvw.unconfirmed x hx h
    obtain ⟨z, hz, hrelay', hstatus'⟩ := huv.unconfirmed y hy hstatus
    exact ⟨z, hz, hrelay'.trans hrelay, hstatus'⟩

/-- Only the relays of a wave and its direction matter to what it refines. -/
theorem Refines.congr {w v v' : Wave} (h : Refines w v) (hclose : v'.close = v.close) (hrelays : v'.relays = v.relays) :
    Refines w v' where
  close := hclose.trans h.close
  relays := by rw [hrelays, h.relays]
  unconfirmed := by rw [hrelays]; exact h.unconfirmed

/-- Giving any status to relays that are not confirmed refines a wave. -/
theorem refines_mark {w : Wave} {rs : List Nat} (st : RelayStatus)
    (hrs : ∀ r ∈ rs, ∃ x ∈ w.relays, x.relay = r ∧ x.status ≠ .confirmed) : Refines w (w.mark rs st) where
  close := rfl
  relays := given_relays w rs st
  unconfirmed x hx h := by
    obtain ⟨y, hy, rfl⟩ := List.mem_map.mp hx
    by_cases hmem : y.relay ∈ rs
    · obtain ⟨z, hz, hrelay, hstatus⟩ := hrs _ hmem
      exact ⟨z, hz, by simp [hmem, hrelay], hstatus⟩
    · exact ⟨y, hy, by simp [hmem], by simpa [hmem] using h⟩

/-- Confirming relays refines a wave. -/
theorem refines_mark_confirmed (w : Wave) (rs : List Nat) : Refines w (w.mark rs .confirmed) where
  close := rfl
  relays := given_relays w rs .confirmed
  unconfirmed x hx h := by
    obtain ⟨y, hy, rfl⟩ := List.mem_map.mp hx
    by_cases hmem : y.relay ∈ rs
    · exact absurd (by simp [hmem]) h
    · exact ⟨y, hy, by simp [hmem], by simpa [hmem] using h⟩

theorem refines_spend (w : Wave) (rs : List Nat) : Refines w (w.spend rs) where
  close := rfl
  relays := by
    unfold Wave.spend
    rw [List.map_map]
    apply List.map_congr_left
    intro x _
    simp only [Function.comp]
    split <;> rfl
  unconfirmed x hx h := by
    obtain ⟨y, hy, rfl⟩ := List.mem_map.mp hx
    refine ⟨y, hy, ?_, ?_⟩
    · split <;> rfl
    · revert h
      split <;> exact id

/-- The relays of a wave that meet a test and are not confirmed. -/
structure Unconfirmed (w : Wave) (rs : List Nat) : Prop where
  sublist : rs.Sublist (w.relays.map WaveRelay.relay)
  status : ∀ r ∈ rs, ∃ x ∈ w.relays, x.relay = r ∧ x.status ≠ .confirmed

theorem unconfirmed_filter (w : Wave) (p : WaveRelay → Bool) (hp : ∀ x, p x = true → x.status ≠ .confirmed) :
    Unconfirmed w ((w.relays.filter p).map WaveRelay.relay) where
  sublist := List.filter_sublist.map _
  status r hr := by
    obtain ⟨x, hx, rfl⟩ := List.mem_map.mp hr
    obtain ⟨hx, hpx⟩ := List.mem_filter.mp hx
    exact ⟨x, hx, rfl, hp x hpx⟩

theorem Unconfirmed.filter {w : Wave} {rs : List Nat} (h : Unconfirmed w rs) (p : Nat → Bool) :
    Unconfirmed w (rs.filter p) :=
  ⟨List.filter_sublist.trans h.sublist, fun r hr => h.status r (List.mem_of_mem_filter hr)⟩

theorem unconfirmed_withStatus (w : Wave) (c : Nat) {st : RelayStatus} (hst : st ≠ .confirmed) :
    Unconfirmed w (w.withStatus c st) :=
  unconfirmed_filter w _ fun x hx => by
    have h : x.relay / 128 = c ∧ x.status = st := by simpa using hx
    exact h.2 ▸ hst

theorem unconfirmed_sensing (w : Wave) : Unconfirmed w (w.sensing.map WaveRelay.relay) :=
  unconfirmed_filter w _ fun x hx => by
    have h : x.status = .sensing := by simpa using hx
    simp [h]

theorem unconfirmed_examined (w : Wave) (c : Nat) : Unconfirmed w (w.examined c) :=
  unconfirmed_filter w _ fun x hx => by
    have h : x.relay / 128 = c ∧ x.status = .sensing ∧ x.spent = false := by simpa using hx
    simp [h.2.1]

/-! ### Properties and their rules -/

/-- A property of states: what holds between events, what holds while the coil chain unit goes on with a wave, what holds
where the engine goes on by the last rows of R103, and what holds where a transition starts or resumes. -/
structure Claim where
  inv : State → Prop
  mid : State → Prop
  ready : State → Prop
  start : State → Prop

/-- Two properties together. -/
def Claim.and (b c : Claim) : Claim :=
  ⟨fun s => b.inv s ∧ c.inv s, fun s => b.mid s ∧ c.mid s, fun s => b.ready s ∧ c.ready s, fun s => b.start s ∧ c.start s⟩

/-- The property of every state. -/
def Claim.any : Claim := ⟨fun _ => True, fun _ => True, fun _ => True, fun _ => True⟩

/-- `c` is kept wherever `b` is: one rule for each thing the blocks but the coil chain unit do. A transition of a new number is started by a
recovery operation only where `pre` holds. -/
structure BlockRules (pre : State → Prop) (b c : Claim) : Prop where
  beside : ∀ {s u}, Beside s u → b.inv s → c.inv s → c.inv u
  raise : ∀ {s} (k : Cause), b.inv s → c.inv s → c.inv (s.raise k)
  -- the engine
  guards : ∀ {s t}, b.start s → c.start s → s.engine.transition = some t → t.guarded ≠ 0 → c.inv (guarding s t)
  unguarded : ∀ {s}, b.start s → c.start s → (∀ t, s.engine.transition = some t → t.guarded = 0) → c.ready s
  rests : ∀ {s}, b.ready s → c.ready s → s.engine.transition = none → c.inv s
  opens : ∀ {s t}, b.ready s → c.ready s → s.engine.transition = some t → s.engine.pendingOpen ≠ [] →
    c.inv (waving s t false)
  closes : ∀ {s t}, b.ready s → c.ready s → s.engine.transition = some t → s.engine.pendingOpen = [] →
    s.engine.pendingClose ≠ [] → c.inv (waving s t true)
  completes : ∀ {s t}, b.ready s → c.ready s → s.engine.transition = some t → s.engine.pendingOpen = [] →
    s.engine.pendingClose = [] → c.inv (ended s t)
  suspends : ∀ {s} (r : SuspendReason), r ≠ .none → b.ready s → c.ready s → c.inv (suspended s r)
  locksOut : ∀ {s}, b.ready s → c.ready s → c.inv s.lockOut
  guarded : ∀ {s}, b.inv s → c.inv s → s.engine.phase = .guarding → c.ready s
  heats : ∀ {s t}, b.ready s → c.ready s → s.engine.transition = some t →
    c.ready (State.raise { s with engine.transition := some { t with hot := true } } .guardBypass)
  faults : ∀ {s} (k : FaultKind) (p : FaultPhase) (ch : Option (Fin 8)) (rs : List Nat), b.ready s → c.ready s →
    c.ready (s.fault k p ch rs)
  resumes : ∀ {s t}, b.inv s → c.inv s → s.engine.phase = .suspended → s.engine.transition = some t →
    c.start (resumed s t)
  rollsBack : ∀ {s t}, pre s → b.inv s → c.inv s → s.engine.phase = .suspended → s.engine.transition = some t →
    t.kind = .stepped →
    (s.resolver.context = none → c.start (rolledBack s t)) ∧ ∀ ctx, c.start (cancelled (rolledBack s t) ctx)
  safeOpens : ∀ {s}, pre s → b.inv s → c.inv s → s.control.mode = .run →
    s.engine.phase = .idle ∨ s.engine.phase = .suspended →
    (s.resolver.context = none → c.start (safeOpened s)) ∧ ∀ ctx, c.start (cancelled (safeOpened s) ctx)
  notesAbort : ∀ {s}, b.inv s → c.inv s → s.engine.phase = .opening ∨ s.engine.phase = .closing →
    c.inv { s with engine.abortNoted := true }
  -- the gate
  empties : ∀ {s}, b.inv s → c.inv s → c.inv { s with gate.slot := none, gate.latch := false }
  latches : ∀ {s}, b.inv s → c.inv s → s.control.mode = .run →
    c.inv { s with gate.latch := true, gate.slot := s.gate.slot.map (fun p => { p with bound := true }) }
  takes : ∀ {s p}, b.inv s → c.inv s → s.engine.phase = .idle → s.resolver.context = none → s.gate.slot = some p →
    s.isStale p = false → c.start (planTaken (unlatched s) p)
  halts : ∀ {s} (r : HaltReason), r ≠ .none → b.inv s → c.inv s →
    c.inv { s with gate.mode := .halt, gate.reason := r }
  leavesHalt : ∀ {s} (m : GateMode), m ≠ .halt → b.inv s → c.inv s →
    c.inv { s with gate.mode := m, gate.reason := .none }
  changesMode : ∀ {s} (m : GateMode), m ≠ .halt → s.gate.mode ≠ .halt → b.inv s → c.inv s →
    c.inv { s with gate.mode := m }
  -- the resolver
  accepts : ∀ {s} (a : StepArg) (mode : StepMode) (action : Action), b.inv s → c.inv s → s.control.mode = .run →
    s.resolver.context = none → c.inv { s with resolver.context := some (s.contextFor a mode action) }
  records : ∀ {s} (r : ResultRecord), b.inv s → c.inv s → c.inv { s with resolver := { context := none, result := r } }
  stages : ∀ {s ctx p} (r : ResultRecord), b.inv s → c.inv s → s.resolver.context = some ctx → s.resolve ctx = .ok p →
    c.inv (staged s p r)
  -- the tables, the modes and the resets
  stores : ∀ {s store size topology} (start : Nat) (ws : List Word), SpaceStore store size topology →
    (topology = true → s.control.mode = .configure) → Fits size start ws → b.inv s → c.inv s →
    c.inv (storeWords store s start ws)
  takesNotices : ∀ {s} (n : Nat), b.inv s → c.inv s → c.inv { s with wear.notices := s.wear.notices.drop n }
  validates : ∀ {s} (v : ValidationRecord), b.inv s → c.inv s → c.inv { s with topology.validation := v }
  entersRun : ∀ {s}, b.inv s → c.inv s → s.control.resetting = none → s.control.mode = .configure →
    c.inv { s with control.mode := .run }
  entersConfigure : ∀ {s}, b.inv s → c.inv s → s.resolver.context = none → s.engine.phase = .idle →
    s.engine.holdings.any (fun e => e.2.isSome) = false → s.gate.slot = none → s.control.mode = .run →
    c.inv { s with gate.latch := false, control.mode := .configure }
  acknowledges : ∀ {s} (operand : BitVec 16), b.inv s → c.inv s → c.inv (s.ackAlert operand).state
  movesLines : ∀ {s} (low lost timer : Bool), b.inv s → c.inv s →
    c.inv { s with control.rstnLow := low, control.lockLost := lost, control.linkTimer := timer }
  resets : ∀ {s} (source : ResetSource) (lost : Bool), b.inv s → c.inv s → c.inv (s.beginReset source lost)
  recordsLinkLoss : ∀ {s r}, b.inv s → c.inv s → s.control.resetting = some r →
    c.inv { s with control.resetting := some { r with linkLost := true } }
  endsReset : ∀ {s r} (straps : BitVec 4), b.inv s → c.inv s → s.control.resetting = some r →
    c.inv (s.finishReset r straps)

/-- And wherever the coil chain unit goes on with a wave. -/
structure Rules (pre : State → Prop) (b c : Claim) : Prop extends BlockRules pre b c where
  exchange : ∀ {s} (ch : Fin 8) (x : Exchange), b.mid s → c.mid s → s.exchange ch ≠ .idle → c.mid (s.setExchange ch x)
  rewaves : ∀ {s w w'}, b.mid s → c.mid s → s.coil.wave = some w → Refines w w' →
    c.mid { s with coil.wave := some w' }
  marks : ∀ {s w rs}, b.mid s → c.mid s → s.coil.wave = some w → Unconfirmed w rs → c.mid (s.markUnknown rs)
  faultsWave : ∀ {s w} (k : FaultKind) (p : FaultPhase) (ch : Option (Fin 8)) (rs : List Nat), b.mid s → c.mid s →
    s.coil.wave = some w → c.mid (s.fault k p ch rs)
  degrades : ∀ {s w r}, b.mid s → c.mid s → s.coil.wave = some w → r ∈ w.relays.map WaveRelay.relay →
    c.mid (s.degrade r)
  confirms : ∀ {s w w' rs} (f : Nat → Exchange) (chains : List Nat), b.mid s → c.mid s → s.coil.wave = some w →
    Refines w w' → Unconfirmed w rs → (∀ ch ∈ chains, ch < 8) →
    (Ascending (w.relays.map WaveRelay.relay) → ∀ x ∈ w'.relays, x.status ≠ .confirmed → x.relay ∉ rs) →
    c.mid (State.confirmAll
      { s with coil.wave := some w', coil.exchanges := exchangesSet s.coil.exchanges f chains } w.close rs)
  ends : ∀ {s w}, b.mid s → c.mid s → s.coil.wave = some w → c.ready (waveless s)
  settles : ∀ {s}, b.mid s → c.mid s → c.inv s

/-! ### Operations built of others -/

theorem startStepped_eq (s : State) (p : Plan) : s.startStepped p = (planTaken s p).beginPhases := rfl

theorem resumeTransition_eq (s : State) (t : Transition) : s.resumeTransition t = (resumed s t).launch := rfl

theorem startRollback_eq (s : State) (t : Transition) :
    s.startRollback t = (rolledBack s t).launch.cancelResolution := rfl

theorem startSafeOpen_eq (s : State) : s.startSafeOpen = (safeOpened s).launch.cancelResolution := rfl

/-- A trigger that is re-examined where it must stay latched stays. -/
theorem reexamine_of_mustLatch {s : State} (h : s.mustLatch = true) : s.reexamine = s := by
  simp [State.reexamine, h]

theorem mustLatch_eq_false_iff (s : State) :
    s.mustLatch = false ↔ s.engine.phase = .idle ∧ s.resolver.context = none ∧ s.gate.mode ≠ .halt := by
  simp [State.mustLatch, and_assoc]

theorem mustLatch_of_context {s : State} {ctx : Resolution} (h : s.resolver.context = some ctx) :
    s.mustLatch = true := by
  simp [State.mustLatch, h]

/-- Step 7 of a completion is a re-examination, since a latched trigger stays while the engine is not IDLE. -/
theorem toldIdle_eq (s : State) : s.toldIdle = s.reexamine := by
  unfold State.toldIdle
  split_ifs with hphase
  · rfl
  · rw [reexamine_of_mustLatch]
    simp [State.mustLatch, hphase]

/-- Why the gate halts as a STEPPED transition of STOP mark `stop` completes, where it does (R153). -/
def gateHalt (stop : Bool) : GateMode → Option HaltReason
  | .normal => if stop then some .stopMark else none
  | .single => some .singleDone
  | .free | .halt => none

/-- Why the gate halts as a transition completes, where it does. -/
def haltAtEnd (t : Transition) (m : GateMode) : Option HaltReason :=
  if t.kind = .stepped then gateHalt t.stop m else none

/-- The gate sent to HALT from another mode, where there is a reason. -/
def haltedFor (s : State) : Option HaltReason → State
  | none => s
  | some r => State.raise { s with gate.mode := .halt, gate.reason := r } .halted

theorem gateCompleted_eq (s : State) (stop : Bool) : s.gateCompleted stop = haltedFor s (gateHalt stop s.gate.mode) := by
  unfold State.gateCompleted State.haltGate
  cases hmode : s.gate.mode with
  | normal => cases stop <;> rfl
  | single | free | halt => rfl

theorem gateHalt_ne_none {stop : Bool} {m : GateMode} {r : HaltReason} (h : gateHalt stop m = some r) : r ≠ .none := by
  rintro rfl
  cases m <;> simp [gateHalt] at h

theorem haltAtEnd_ne_none {t : Transition} {m : GateMode} {r : HaltReason} (h : haltAtEnd t m = some r) : r ≠ .none := by
  unfold haltAtEnd at h
  split_ifs at h
  exact gateHalt_ne_none h

/-- A completion ends the transition, raises DONE and halts the gate where R153 says so. -/
theorem complete_eq (s : State) (t : Transition) :
    s.complete t = haltedFor ((ended s t).raise .done) (haltAtEnd t s.gate.mode) := by
  unfold State.complete haltAtEnd
  cases hkind : t.kind with
  | rollback | safeOpen => rfl
  | stepped =>
    simp only [gateCompleted_eq, raise_gate, if_true]
    cases gateHalt t.stop s.gate.mode <;> rfl

theorem suspend_eq (s : State) (r : SuspendReason) : s.suspend r = ((suspended s r).raise .suspend).gateSuspended := rfl

theorem complete_withResolver (s : State) (t : Transition) (v : Resolver) :
    (withResolver s v).complete t = withResolver (s.complete t) v := by
  rw [complete_eq, complete_eq]
  change haltedFor _ (haltAtEnd t s.gate.mode) = _
  cases haltAtEnd t s.gate.mode <;> rfl

/-- A phase entered neither reads nor writes the resolver. -/
theorem enterPhase_withResolver (s : State) (v : Resolver) :
    (withResolver s v).enterPhase = withResolver s.enterPhase v := by
  unfold State.enterPhase
  change (match s.engine.transition with | none => _ | some t => _) = _
  cases s.engine.transition with
  | none => rfl
  | some t =>
    change (if s.engine.pendingOpen ≠ [] then _ else if s.engine.pendingClose ≠ [] then _ else _) = _
    dsimp only
    split_ifs
    · rfl
    · rfl
    · exact complete_withResolver s t v

theorem beginPhases_withResolver (s : State) (v : Resolver) :
    (withResolver s v).beginPhases = withResolver s.beginPhases v := by
  unfold State.beginPhases
  change (match s.engine.transition with | none => _ | some t => _) = _
  cases s.engine.transition with
  | none => rfl
  | some t =>
    dsimp only
    split_ifs
    · rfl
    · exact enterPhase_withResolver s v

theorem beginPhases_resolver (s : State) : s.beginPhases.resolver = s.resolver :=
  (congrArg (fun u : State => u.resolver) (beginPhases_withResolver s s.resolver) :)

/-- While a resolution is in flight the launch of a transition leaves a latched trigger alone, which is re-examined once the
resolution is cancelled: as if it had been cancelled before (R63; log 31). -/
theorem cancelResolution_launch {s : State} {ctx : Resolution} (h : s.resolver.context = some ctx) :
    s.launch.cancelResolution = (cancelled s ctx).launch.raise .resolveFail := by
  have hcontext : s.beginPhases.resolver.context = some ctx := by rw [beginPhases_resolver, h]
  have hlaunch : s.launch = s.beginPhases := by
    rw [State.launch, toldIdle_eq, reexamine_of_mustLatch (mustLatch_of_context hcontext)]
  have hcancel : s.beginPhases.cancelResolution = (cancelled s.beginPhases ctx).reexamine.raise .resolveFail := by
    unfold State.cancelResolution
    rw [hcontext]
    rfl
  rw [hlaunch, hcancel, State.launch, toldIdle_eq, cancelled, cancelled, beginPhases_withResolver]

theorem cancelResolution_of_none {s : State} (h : s.resolver.context = none) : s.cancelResolution = s := by
  simp [State.cancelResolution, h]

/-! ### What follows from the rules -/

section

variable {pre : State → Prop} {c : Claim}

namespace BlockRules

theorem complete (R : BlockRules pre .any c) {s : State} {t : Transition} (h : c.ready s)
    (ht : s.engine.transition = some t) (hopen : s.engine.pendingOpen = []) (hclose : s.engine.pendingClose = []) :
    c.inv (s.complete t) := by
  have hdone := R.raise .done trivial (R.completes trivial h ht hopen hclose)
  rw [complete_eq]
  cases hhalt : haltAtEnd t s.gate.mode with
  | none => exact hdone
  | some r => exact R.raise _ trivial (R.halts r (haltAtEnd_ne_none hhalt) trivial hdone)

theorem enterPhase (R : BlockRules pre .any c) {s : State} (h : c.ready s) : c.inv s.enterPhase := by
  unfold State.enterPhase
  split
  next hnone => exact R.rests trivial h hnone
  next t ht =>
    split_ifs with hopen hclose
    · exact R.opens trivial h ht hopen
    · exact R.closes trivial h ht (not_not.mp hopen) hclose
    · exact R.complete h ht (not_not.mp hopen) (not_not.mp hclose)

theorem beginPhases (R : BlockRules pre .any c) {s : State} (h : c.start s) : c.inv s.beginPhases := by
  unfold State.beginPhases
  split
  next hnone => exact R.rests trivial (R.unguarded trivial h (by simp [hnone])) hnone
  next t ht =>
    split_ifs with hguarded
    · exact R.guards trivial h ht hguarded
    · refine R.enterPhase (R.unguarded trivial h fun u hu => ?_)
      rw [ht] at hu
      cases hu
      exact not_not.mp hguarded

/-- A trigger taken out of the latch, or arriving at an empty one, with the engine and the resolver IDLE. -/
theorem takeTrigger (R : BlockRules pre .any c) {s : State} (h : c.inv s) (hmust : s.mustLatch = false) :
    c.inv (unlatched s).takeTrigger := by
  obtain ⟨hphase, hcontext, -⟩ := (mustLatch_eq_false_iff s).mp hmust
  unfold State.takeTrigger
  split
  next p hp =>
    split_ifs with hstale
    · exact R.raise _ trivial (R.empties (s := s) trivial h)
    · rw [startStepped_eq]
      exact R.beginPhases (R.takes trivial h hphase hcontext hp (Bool.eq_false_of_not_eq_true hstale))
  next hslot =>
    have hempty : unlatched s = { s with gate.slot := none, gate.latch := false } := by
      change s.gate.slot = none at hslot
      rw [← hslot]
      rfl
    rw [hempty]
    exact R.raise _ trivial (R.empties trivial h)

theorem reexamine (R : BlockRules pre .any c) {s : State} (h : c.inv s) : c.inv s.reexamine := by
  unfold State.reexamine
  split_ifs with hcond
  · obtain ⟨-, hmust⟩ := Bool.and_eq_true_iff.mp hcond
    exact R.takeTrigger h (by simpa using hmust)
  · exact h

theorem trigger (R : BlockRules pre .any c) {s : State} (h : c.inv s) : c.inv s.trigger := by
  unfold State.trigger
  split_ifs with hmode hlatch hmust
  · exact h
  · exact R.raise _ trivial h
  · exact R.latches trivial h (not_not.mp hmode)
  · have hempty : unlatched s = s := by
      have hfalse : s.gate.latch = false := by simpa using hlatch
      rw [unlatched, ← hfalse]
    exact hempty ▸ R.takeTrigger h (by simpa using hmust)

theorem advance (R : BlockRules pre .any c) {s : State} (h : c.ready s) : c.inv s.advance := by
  rw [State.advance, toldIdle_eq]
  exact R.reexamine (R.enterPhase h)

theorem launch (R : BlockRules pre .any c) {s : State} (h : c.start s) : c.inv s.launch := by
  rw [State.launch, toldIdle_eq]
  exact R.reexamine (R.beginPhases h)

/-- A recovery operation that starts a transition, with the resolution it cancels. -/
theorem cancelLaunch (R : BlockRules pre .any c) {s : State}
    (h : (s.resolver.context = none → c.start s) ∧ ∀ ctx, c.start (cancelled s ctx)) :
    c.inv s.launch.cancelResolution := by
  cases hcontext : s.resolver.context with
  | none =>
    have hinv := R.launch (h.1 hcontext)
    unfold State.cancelResolution
    split
    · exact hinv
    · exact R.raise _ trivial (R.reexamine (R.records _ trivial hinv))
  | some ctx =>
    rw [cancelResolution_launch hcontext]
    exact R.raise _ trivial (R.launch (h.2 ctx))

theorem haltGate (R : BlockRules pre .any c) {s : State} {r : HaltReason} (hr : r ≠ .none) (h : c.inv s) :
    c.inv (s.haltGate r) := by
  have hhalted := R.halts r hr trivial h
  unfold State.haltGate
  split_ifs with hmode
  · rw [← hmode] at hhalted
    exact hhalted
  · exact R.raise _ trivial hhalted

theorem setGateMode (R : BlockRules pre .any c) {s : State} (m : GateMode) (h : c.inv s) : c.inv (s.setGateMode m) := by
  unfold State.setGateMode
  split_ifs with hm hmode
  · exact R.haltGate (by decide) h
  · exact R.reexamine (R.leavesHalt m hm trivial h)
  · exact R.changesMode m hm hmode trivial h

theorem completeResolution (R : BlockRules pre .any c) {s : State} {ctx : Resolution} (h : c.inv s)
    (hctx : s.resolver.context = some ctx) : c.inv (s.completeResolution ctx) := by
  unfold State.completeResolution
  split
  · exact R.raise _ trivial (R.reexamine (R.records _ trivial h))
  next p hp =>
    have htold : c.inv (((if ctx.action.stages then s.stagePlan p else s).endResolution
        (okResult ctx p (ctx.action.stages && s.gate.slot.isSome))).raise .resolved) := by
      split_ifs
      · exact R.raise _ trivial (R.reexamine (R.stages (s := s) _ trivial h hctx hp))
      · exact R.raise _ trivial (R.reexamine (R.records _ trivial h))
    dsimp only
    split_ifs at htold ⊢
    · exact R.trigger htold
    · exact R.trigger htold
    · exact htold
    · exact htold

theorem gateSuspended (R : BlockRules pre .any c) {s : State} (h : c.inv s) : c.inv s.gateSuspended := by
  rw [gateSuspended_eq]
  split_ifs
  · exact h
  · exact R.haltGate (by decide) h

theorem suspend (R : BlockRules pre .any c) {s : State} {r : SuspendReason} (hr : r ≠ .none) (h : c.ready s) :
    c.inv (s.suspend r) := by
  rw [suspend_eq]
  exact R.gateSuspended (R.raise _ trivial (R.suspends r hr trivial h))

/-- The end of a wave, with the engine where it goes on. -/
theorem endWave (R : BlockRules pre .any c) {s : State} (v : Wave) (hready : c.ready (waveless s)) :
    c.inv (s.endWave v) := by
  unfold State.endWave
  dsimp only
  split_ifs
  · split
    · exact R.locksOut trivial hready
    · exact R.suspend (by decide) hready
  · exact R.suspend (by decide) hready
  · exact R.advance hready

/-- Every effect outside the coil chain unit keeps a property that meets the rules of the blocks. -/
theorem effect (R : BlockRules pre .any c) {s u : State} (he : Effect s u) (hpre : pre s) (h : c.inv s)
    (hchain : ChainEffect s u → c.inv u) : c.inv u := by
  have beside_lines : ∀ low lost timer, c.inv
      { s with control.rstnLow := low, control.lockLost := lost, control.linkTimer := timer } :=
    fun low lost timer => R.movesLines low lost timer trivial h
  cases he with
  | stays => exact h
  | accepts a mode action hmode hcontext => exact R.accepts a mode action trivial h hmode hcontext
  | stores start ws hstore htop hfits => exact R.stores start ws hstore htop hfits trivial h
  | takesNotices n => exact R.takesNotices n trivial h
  | validates => exact R.validates _ trivial h
  | entersRun hreset hmode _ => exact R.entersRun trivial (R.validates s.validate trivial h) hreset hmode
  | entersConfigure hcontext hphase hheld hslot hmode =>
    exact R.entersConfigure trivial h hcontext hphase hheld hslot hmode
  | setsGate m _ => exact R.setGateMode m h
  | discards => exact R.empties trivial h
  | abortsGuard hphase => exact R.suspend (by decide) (R.guarded trivial h hphase)
  | notesAbort hphase => exact R.notesAbort trivial h hphase
  | resumes t hphase ht => exact R.launch (R.resumes trivial h hphase ht)
  | rollsBack t hphase ht hkind => exact R.cancelLaunch (R.rollsBack hpre trivial h hphase ht hkind)
  | safeOpens hmode hphase => exact R.cancelLaunch (R.safeOpens hpre trivial h hmode hphase)
  | acknowledges operand => exact R.acknowledges operand trivial h
  | raisesLinkCrc => exact R.raise _ trivial h
  | movesLines low lost timer => exact beside_lines low lost timer
  | resets low timer source lost => exact R.resets source lost trivial (beside_lines low s.control.lockLost timer)
  | recordsLinkLoss r hr =>
    exact R.recordsLinkLoss trivial (beside_lines s.control.rstnLow s.control.lockLost false) hr
  | endsReset r straps hr => exact R.endsReset straps trivial h hr
  | triggers => exact R.trigger h
  | satisfiesGuard hphase => exact R.advance (R.guarded trivial h hphase)
  | bypassesGuard t hphase ht => exact R.advance (R.heats trivial (R.guarded trivial h hphase) ht)
  | failsGuard hphase =>
    exact R.suspend (by decide) (R.faults _ _ _ _ trivial (R.guarded trivial h hphase))
  | resolves ctx hctx => exact R.completeResolution h hctx
  | chain hu => exact hchain hu

/-- And so does every step, where the effects of the coil chain unit keep it. -/
theorem step (R : BlockRules pre .any c) {s t : State} (hstep : Machine.step s = .next t)
    (hpre : ∀ u, Beside s u → pre u) (h : c.inv s) (hchain : ∀ u v, c.inv u → ChainEffect u v → c.inv v) :
    c.inv t := by
  obtain ⟨s', u, hs, hu, ht⟩ := leads_step hstep
  have hs' := R.beside hs trivial h
  exact R.beside ht trivial (R.effect hu (hpre s' hs) hs' (hchain s' u hs'))

/-- Two properties together are kept where the second is kept wherever the first is. -/
theorem and {b : Claim} (B : BlockRules pre .any b) (R : BlockRules pre b c) : BlockRules pre .any (b.and c) where
  beside hb _ h := ⟨B.beside hb trivial h.1, R.beside hb h.1 h.2⟩
  raise k _ h := ⟨B.raise k trivial h.1, R.raise k h.1 h.2⟩
  guards _ h ht hg := ⟨B.guards trivial h.1 ht hg, R.guards h.1 h.2 ht hg⟩
  unguarded _ h hg := ⟨B.unguarded trivial h.1 hg, R.unguarded h.1 h.2 hg⟩
  rests _ h ht := ⟨B.rests trivial h.1 ht, R.rests h.1 h.2 ht⟩
  opens _ h ht ho := ⟨B.opens trivial h.1 ht ho, R.opens h.1 h.2 ht ho⟩
  closes _ h ht ho hc := ⟨B.closes trivial h.1 ht ho hc, R.closes h.1 h.2 ht ho hc⟩
  completes _ h ht ho hc := ⟨B.completes trivial h.1 ht ho hc, R.completes h.1 h.2 ht ho hc⟩
  suspends r hr _ h := ⟨B.suspends r hr trivial h.1, R.suspends r hr h.1 h.2⟩
  locksOut _ h := ⟨B.locksOut trivial h.1, R.locksOut h.1 h.2⟩
  guarded _ h hp := ⟨B.guarded trivial h.1 hp, R.guarded h.1 h.2 hp⟩
  heats _ h ht := ⟨B.heats trivial h.1 ht, R.heats h.1 h.2 ht⟩
  faults k p ch rs _ h := ⟨B.faults k p ch rs trivial h.1, R.faults k p ch rs h.1 h.2⟩
  resumes _ h hp ht := ⟨B.resumes trivial h.1 hp ht, R.resumes h.1 h.2 hp ht⟩
  rollsBack hpre _ h hp ht hk :=
    have hb := B.rollsBack hpre trivial h.1 hp ht hk
    have hr := R.rollsBack hpre h.1 h.2 hp ht hk
    ⟨fun hc => ⟨hb.1 hc, hr.1 hc⟩, fun ctx => ⟨hb.2 ctx, hr.2 ctx⟩⟩
  safeOpens hpre _ h hm hp :=
    have hb := B.safeOpens hpre trivial h.1 hm hp
    have hr := R.safeOpens hpre h.1 h.2 hm hp
    ⟨fun hc => ⟨hb.1 hc, hr.1 hc⟩, fun ctx => ⟨hb.2 ctx, hr.2 ctx⟩⟩
  notesAbort _ h hp := ⟨B.notesAbort trivial h.1 hp, R.notesAbort h.1 h.2 hp⟩
  empties _ h := ⟨B.empties trivial h.1, R.empties h.1 h.2⟩
  latches _ h hm := ⟨B.latches trivial h.1 hm, R.latches h.1 h.2 hm⟩
  takes _ h hp hc hs hst := ⟨B.takes trivial h.1 hp hc hs hst, R.takes h.1 h.2 hp hc hs hst⟩
  halts r hr _ h := ⟨B.halts r hr trivial h.1, R.halts r hr h.1 h.2⟩
  leavesHalt m hm _ h := ⟨B.leavesHalt m hm trivial h.1, R.leavesHalt m hm h.1 h.2⟩
  changesMode m hm hs _ h := ⟨B.changesMode m hm hs trivial h.1, R.changesMode m hm hs h.1 h.2⟩
  accepts a m act _ h hm hc := ⟨B.accepts a m act trivial h.1 hm hc, R.accepts a m act h.1 h.2 hm hc⟩
  records r _ h := ⟨B.records r trivial h.1, R.records r h.1 h.2⟩
  stages r _ h hc hp := ⟨B.stages r trivial h.1 hc hp, R.stages r h.1 h.2 hc hp⟩
  stores start ws hs ht hf _ h := ⟨B.stores start ws hs ht hf trivial h.1, R.stores start ws hs ht hf h.1 h.2⟩
  takesNotices n _ h := ⟨B.takesNotices n trivial h.1, R.takesNotices n h.1 h.2⟩
  validates v _ h := ⟨B.validates v trivial h.1, R.validates v h.1 h.2⟩
  entersRun _ h hr hm := ⟨B.entersRun trivial h.1 hr hm, R.entersRun h.1 h.2 hr hm⟩
  entersConfigure _ h hc hp hh hs hm :=
    ⟨B.entersConfigure trivial h.1 hc hp hh hs hm, R.entersConfigure h.1 h.2 hc hp hh hs hm⟩
  acknowledges o _ h := ⟨B.acknowledges o trivial h.1, R.acknowledges o h.1 h.2⟩
  movesLines a b d _ h := ⟨B.movesLines a b d trivial h.1, R.movesLines a b d h.1 h.2⟩
  resets so lost _ h := ⟨B.resets so lost trivial h.1, R.resets so lost h.1 h.2⟩
  recordsLinkLoss _ h hr := ⟨B.recordsLinkLoss trivial h.1 hr, R.recordsLinkLoss h.1 h.2 hr⟩
  endsReset straps _ h hr := ⟨B.endsReset straps trivial h.1 hr, R.endsReset straps h.1 h.2 hr⟩

end BlockRules

namespace Rules

/-! The coil chain unit. -/

theorem endWave (R : Rules pre .any c) {s : State} {w : Wave} (v : Wave) (h : c.mid s) (hw : s.coil.wave = some w) :
    c.inv (s.endWave v) :=
  R.toBlockRules.endWave v (R.ends trivial h hw)

theorem faulted_wave (s : State) (k : FaultKind) (p : FaultPhase) (ch : Option (Fin 8)) (rs : List Nat) :
    (s.fault k p ch rs).coil = s.coil := by
  unfold State.fault
  split <;> rfl

/-- The relays that a sense deadline has failed are marked, and the wave has a failure to report (R91, R111). -/
def unsensed (v : Wave) : Wave := { v.mark (v.sensing.map WaveRelay.relay) .contactFailed with failed := true }

theorem refines_unsensed (v : Wave) : Refines v (unsensed v) :=
  (refines_mark .contactFailed (unconfirmed_sensing v).status).congr rfl rfl

theorem unconfirmed_unsensed (v : Wave) : Unconfirmed (unsensed v) (v.sensing.map WaveRelay.relay) := by
  refine ⟨(given_relays v _ .contactFailed).symm ▸ (unconfirmed_sensing v).sublist, fun r hr => ?_⟩
  obtain ⟨x, hx, hrelay, -⟩ := (unconfirmed_sensing v).status r hr
  exact ⟨_, List.mem_map.mpr ⟨x, hx, rfl⟩, by simp only [hrelay, hr, if_true], by simp only [hrelay, hr, if_true]; decide⟩

/-- A CONTACT failure before its wave ends: the relays UNKNOWN, the fault recorded and their health changed (R91, R126). -/
def contactFailed (s : State) (v : Wave) : State :=
  (v.sensing.map WaveRelay.relay).foldl (fun t r => t.degrade r)
    (({ s with coil.wave := some (unsensed v) }.markUnknown (v.sensing.map WaveRelay.relay)).fault .contact
      (if v.close then .closing else .opening) none (v.sensing.map WaveRelay.relay))

theorem contactFails_eq (s : State) (v : Wave) : s.contactFails v = (contactFailed s v).endWave (unsensed v) := rfl

theorem foldl_degrade_coil (l : List Nat) (u : State) : (l.foldl (fun t r => t.degrade r) u).coil = u.coil := by
  induction l generalizing u with
  | nil => rfl
  | cons r l ih =>
    rw [List.foldl_cons, ih, degrade_frame]

theorem contactFailed_wave (s : State) (v : Wave) : (contactFailed s v).coil.wave = some (unsensed v) := by
  rw [contactFailed, foldl_degrade_coil, faulted_wave]
  rfl

theorem contactFailed_mid (R : Rules pre .any c) {s : State} {w v : Wave} (h : c.mid s) (hw : s.coil.wave = some w)
    (hv : Refines w v) : c.mid (contactFailed s v) := by
  have hun := unconfirmed_unsensed v
  have hmark := R.marks (s := { s with coil.wave := some (unsensed v) }) trivial
    (R.rewaves trivial h hw (hv.trans (refines_unsensed v))) rfl hun
  have hfault := R.faultsWave .contact (if v.close then .closing else .opening) none (v.sensing.map WaveRelay.relay)
    trivial hmark rfl
  have hdegrade : ∀ (l : List Nat) (u : State), (∀ r ∈ l, r ∈ (unsensed v).relays.map WaveRelay.relay) → c.mid u →
      u.coil.wave = some (unsensed v) → c.mid (l.foldl (fun t r => t.degrade r) u) := by
    intro l
    induction l with
    | nil => exact fun u _ hu _ => hu
    | cons r l ih =>
      intro u hl hu hwave
      refine ih _ (fun x hx => hl x (List.mem_cons_of_mem _ hx))
        (R.degrades trivial hu hwave (hl r (List.mem_cons_self ..))) ?_
      change (u.degrade r).coil.wave = _
      rw [degrade_frame]
      exact hwave
  exact hdegrade _ _ (fun r hr => hun.sublist.subset hr) hfault (by rw [faulted_wave]; rfl)

theorem contactFails (R : Rules pre .any c) {s : State} {w v : Wave} (h : c.mid s) (hw : s.coil.wave = some w)
    (hv : Refines w v) : c.inv (s.contactFails v) :=
  R.endWave (unsensed v) (R.contactFailed_mid h hw hv) (contactFailed_wave s v)

theorem senseProgress (R : Rules pre .any c) {s : State} (reachedNow : Bool) (h : c.mid s) :
    c.inv (s.senseProgress reachedNow) := by
  unfold State.senseProgress
  split
  next w hw =>
    split
    next d reached hstage =>
      have hstaged : ∀ st, Refines w { w with stage := st } := fun st => (Refines.refl w).congr rfl rfl
      split_ifs
      · exact R.endWave w h hw
      · dsimp only
        split_ifs
        · exact R.contactFails h hw (hstaged _)
        · exact R.settles trivial (R.rewaves trivial h hw (hstaged _))
    · exact R.settles trivial h
    · exact R.settles trivial h
  · exact R.settles trivial h

theorem chainFails (R : Rules pre .any c) {s : State} {w : Wave} {ch : Fin 8} {rs : List Nat} (h : c.mid s)
    (hw : s.coil.wave = some w) (hx : s.exchange ch ≠ .idle) (hun : Unconfirmed w rs) :
    c.mid (s.chainFails w ch rs) := by
  set marked : Wave := { w.mark rs .chainFailed with failed := true } with hmarked
  have hrefines : Refines w marked := (refines_mark .chainFailed hun.status).congr rfl rfl
  have hmarkedUn : Unconfirmed marked rs := by
    refine ⟨(given_relays w rs .chainFailed).symm ▸ hun.sublist, fun r hr => ?_⟩
    obtain ⟨x, hx, hrelay, -⟩ := hun.status r hr
    exact ⟨_, List.mem_map.mpr ⟨x, hx, rfl⟩, by simp [hrelay, hr], by simp [hrelay, hr]⟩
  have hexchange := R.exchange ch .failed trivial (R.rewaves trivial h hw hrefines) hx
  have hmark := R.marks trivial hexchange rfl hmarkedUn
  exact R.faultsWave .chain _ (some ch) rs trivial hmark rfl

theorem chainFails_wave (s : State) (w : Wave) (ch : Fin 8) (rs : List Nat) :
    (s.chainFails w ch rs).coil.wave = some { w.mark rs .chainFailed with failed := true } := by
  unfold State.chainFails
  rw [faulted_wave]
  rfl

theorem confirmEach_coil (close : Bool) (rs : List Nat) (s : State) : (s.confirmEach close rs).coil = s.coil := by
  induction rs generalizing s with
  | nil => rfl
  | cons r l ih =>
    change ((s.confirm close r).confirmEach close l).coil = _
    rw [ih, confirm_frame]

theorem confirmAll_coil (s : State) (close : Bool) (rs : List Nat) : (s.confirmAll close rs).coil = s.coil := by
  obtain ⟨p, n, -, h⟩ := confirmAll_apart s close rs
  rw [h]
  exact confirmEach_coil close _ s

/-- The relays of the waves that a timed wait ends: those latched of one confirmation mode. -/
def latchedOf (w : Wave) (m : ConfirmMode) : List Nat :=
  (w.relays.filter (fun x => decide (x.mode = m) && decide (x.status = .latched))).map WaveRelay.relay

theorem unconfirmed_latchedOf (w : Wave) (m : ConfirmMode) : Unconfirmed w (latchedOf w m) :=
  unconfirmed_filter w _ fun x hx => by
    have hst : x.status = .latched := by simpa using (Bool.and_eq_true_iff.mp hx).2
    simp [hst]

/-- The wave at the end of its timed wait: TIMED relays confirmed and SENSED ones SENSING (R90, R110). -/
def waited (w : Wave) : Wave := (w.mark (latchedOf w .timed) .confirmed).mark (latchedOf w .sensed) .sensing

theorem refines_waited (w : Wave) : Refines w (waited w) where
  close := rfl
  relays := (given_relays _ _ _).trans (given_relays w _ _)
  unconfirmed x hx h := by
    obtain ⟨y, hy, rfl⟩ := List.mem_map.mp hx
    obtain ⟨z, hz, rfl⟩ := List.mem_map.mp hy
    have hrelay : ∀ b : Prop, [Decidable b] → ∀ st, (if b then { z with status := st } else z).relay = z.relay :=
      fun b _ st => by split <;> rfl
    rw [hrelay] at h ⊢
    by_cases hsensed : z.relay ∈ latchedOf w .sensed
    · obtain ⟨v, hv, hvr, hvs⟩ := (unconfirmed_latchedOf w .sensed).status _ hsensed
      exact ⟨v, hv, by simp [hsensed, hvr], hvs⟩
    · by_cases htimed : z.relay ∈ latchedOf w .timed
      · simp [hsensed, htimed] at h
      · exact ⟨z, hz, by simp [hsensed, htimed], by simpa [hsensed, htimed] using h⟩

/-- In a wave in ascending order the TIMED relays are confirmed at the end of the wait, whatever becomes of the others. -/
theorem waited_confirmed {w : Wave} (h : Ascending (w.relays.map WaveRelay.relay)) :
    ∀ x ∈ (waited w).relays, x.status ≠ .confirmed → x.relay ∉ latchedOf w .timed := by
  intro x hx hstatus htimed
  obtain ⟨y, hy, rfl⟩ := List.mem_map.mp hx
  obtain ⟨z, hz, rfl⟩ := List.mem_map.mp hy
  have hrelay : ∀ b : Prop, [Decidable b] → ∀ st, (if b then { z with status := st } else z).relay = z.relay :=
    fun b _ st => by split <;> rfl
  rw [hrelay] at hstatus htimed
  have hz_timed : z.relay ∈ latchedOf w .timed := by
    revert htimed
    split <;> simp only [hrelay] <;> exact id
  have hmode : z.mode = .timed := by
    have hp := (mem_relays_filter h _ z hz).mp hz_timed
    simpa using (Bool.and_eq_true_iff.mp hp).1
  have hz_sensed : z.relay ∉ latchedOf w .sensed := by
    intro hmem
    have hp := (mem_relays_filter h _ z hz).mp hmem
    have hmode' : z.mode = .sensed := by simpa using (Bool.and_eq_true_iff.mp hp).1
    simp [hmode] at hmode'
  simp [hz_timed, hz_sensed] at hstatus

/-- The exchange states at the end of a timed wait (R90). -/
def waitedExchange (w : Wave) (ch : Nat) : Exchange :=
  if (latchedOf w .sensed).any (fun r => decide (r / 128 = ch)) then .sensing 1 .shifting else .done

/-- The end of a timed wait before the sense period goes on: TIMED relays confirmed, one after another, and each latched
chain sensing or DONE (R90, R110). -/
def timedOut (s : State) (w : Wave) : State :=
  State.confirmAll
    { s with
      coil.wave := some { waited w with stage := .sensing (senseDeadline (waited w).sensing) false },
      coil.exchanges := exchangesSet s.coil.exchanges (waitedExchange w)
        (w.chains.filter (fun c => decide (s.exchange c = .latched))) } w.close (latchedOf w .timed)

theorem endTimedWait_eq (s : State) (w : Wave) : s.endTimedWait w = (timedOut s w).senseProgress false := by
  unfold State.endTimedWait timedOut waited latchedOf exchangesSet waitedExchange
  simp only [List.filter_filter]
  rfl

theorem timedOut_mid (R : Rules pre .any c) {s : State} {w v : Wave} (h : c.mid s) (hw : s.coil.wave = some w)
    (hclose : v.close = w.close) (hrelays : v.relays = w.relays) : c.mid (timedOut s v) := by
  have hlatched := unconfirmed_latchedOf v .timed
  have hwaited : Refines w (waited v) := ((Refines.refl w).congr hclose hrelays).trans (refines_waited v)
  have hun : Unconfirmed w (latchedOf v .timed) := ⟨hrelays ▸ hlatched.sublist, hrelays ▸ hlatched.status⟩
  rw [timedOut, hclose]
  refine R.confirms _ _ trivial h hw (hwaited.congr rfl rfl) hun ?_ ?_
  · intro ch hch
    exact ((mem_touchedChains _ ch).mp (List.mem_of_mem_filter hch)).1
  · intro hasc
    rw [← hrelays] at hasc
    exact waited_confirmed hasc

theorem endTimedWait (R : Rules pre .any c) {s : State} {w v : Wave} (h : c.mid s) (hw : s.coil.wave = some w)
    (hclose : v.close = w.close) (hrelays : v.relays = w.relays) : c.inv (s.endTimedWait v) := by
  rw [endTimedWait_eq]
  exact R.senseProgress false (R.timedOut_mid h hw hclose hrelays)

theorem writeProgress (R : Rules pre .any c) {s : State} (h : c.mid s) : c.inv s.writeProgress := by
  unfold State.writeProgress
  split
  next w hw =>
    dsimp only
    split_ifs
    · exact R.settles trivial h
    · exact R.endTimedWait h hw rfl rfl
    · exact R.settles trivial (R.rewaves trivial h hw ((Refines.refl w).congr rfl rfl))
    · exact R.endWave w h hw
  · exact R.settles trivial h

theorem writeAttemptFails (R : Rules pre .any c) {s : State} {ch : Fin 8} (n : Nat) (h : c.mid s)
    (hx : s.exchange ch ≠ .idle) : c.inv (s.writeAttemptFails ch n) := by
  unfold State.writeAttemptFails
  split_ifs
  · exact R.settles trivial (R.exchange ch _ trivial h hx)
  · split
    next w hw => exact R.writeProgress (R.chainFails h hw hx (unconfirmed_withStatus w ch (by decide)))
    · exact R.settles trivial h

theorem senseAttemptFails (R : Rules pre .any c) {s : State} {ch : Fin 8} (n : Nat) (h : c.mid s)
    (hx : s.exchange ch ≠ .idle) : c.inv (s.senseAttemptFails ch n) := by
  unfold State.senseAttemptFails
  split_ifs
  · exact R.settles trivial (R.exchange ch _ trivial h hx)
  · split
    next w hw => exact R.senseProgress false (R.chainFails h hw hx (unconfirmed_withStatus w ch (by decide)))
    · exact R.settles trivial h

theorem chainLatches (R : Rules pre .any c) {s : State} {ch : Fin 8} (h : c.mid s) (hx : s.exchange ch ≠ .idle) :
    c.inv (s.chainLatches ch) := by
  unfold State.chainLatches
  split
  next w hw =>
    have hmark := refines_mark .latched (unconfirmed_withStatus w ch (st := .writing) (by decide)).status
    exact R.writeProgress (R.exchange ch _ trivial (R.rewaves trivial h hw hmark) hx)
  · exact R.settles trivial h

/-- The wave after a sense exchange: its matching relays confirmed, and missed ones of timeout 0 spent (R90, R91). -/
def examinedWave (w : Wave) (matching missed : List Nat) : Wave := (w.mark matching .confirmed).spend missed

theorem refines_examinedWave (w : Wave) (matching missed : List Nat) : Refines w (examinedWave w matching missed) :=
  (refines_mark_confirmed w matching).trans (refines_spend _ missed)

theorem examinedWave_confirmed (w : Wave) (matching missed : List Nat) :
    ∀ x ∈ (examinedWave w matching missed).relays, x.status ≠ .confirmed → x.relay ∉ matching := by
  intro x hx hstatus hmem
  obtain ⟨y, hy, rfl⟩ := List.mem_map.mp hx
  obtain ⟨z, hz, rfl⟩ := List.mem_map.mp hy
  have hrelay : ∀ (b : Prop) [Decidable b] (u : WaveRelay),
      (if b then { u with spent := true } else u).relay = u.relay ∧
        (if b then { u with spent := true } else u).status = u.status :=
    fun b _ u => by split <;> exact ⟨rfl, rfl⟩
  rw [(hrelay _ _).1] at hmem
  rw [(hrelay _ _).2] at hstatus
  by_cases hz' : z.relay ∈ matching
  · simp [hz'] at hstatus
  · simp [hz'] at hmem

/-- The relays that a sense exchange of chain `ch` finds as the wave wants them. -/
def matchingOf (w : Wave) (ch : Fin 8) (made : Image) : List Nat :=
  (w.examined ch).filter (fun r => decide (made.getLsbD (r % 128) = w.close))

/-- And those that it finds otherwise. -/
def missedOf (w : Wave) (ch : Fin 8) (made : Image) : List Nat :=
  (w.examined ch).filter (fun r => decide (made.getLsbD (r % 128) ≠ w.close))

/-- The wave after a sense exchange of chain `ch`. -/
def sensedWave (w : Wave) (ch : Fin 8) (made : Image) : Wave := examinedWave w (matchingOf w ch made) (missedOf w ch made)

/-- A sense exchange that has matched, before the sense period goes on (R90, R91). -/
def sensedOnce (s : State) (w : Wave) (ch : Fin 8) (made : Image) : State :=
  (State.confirmAll { s with coil.wave := some (sensedWave w ch made) } w.close (matchingOf w ch made)).setExchange ch
    (if (sensedWave w ch made).withStatus ch .sensing = [] then .done else .senseInterval)

theorem senseCompletes_eq {s : State} {w : Wave} (ch : Fin 8) (made : Image) (hw : s.coil.wave = some w) :
    s.senseCompletes ch made = (sensedOnce s w ch made).senseProgress false := by
  simp only [State.senseCompletes, hw]
  rfl

theorem sensedOnce_mid (R : Rules pre .any c) {s : State} {w : Wave} {ch : Fin 8} (made : Image) (h : c.mid s)
    (hw : s.coil.wave = some w) (hx : s.exchange ch ≠ .idle) : c.mid (sensedOnce s w ch made) := by
  have hun : Unconfirmed w (matchingOf w ch made) := (unconfirmed_examined w ch).filter _
  have hconfirm := R.confirms (fun _ => .idle) [] trivial h hw (refines_examinedWave w _ (missedOf w ch made)) hun
    (by simp) (fun _ => examinedWave_confirmed w _ _)
  refine R.exchange ch _ trivial hconfirm ?_
  unfold State.exchange
  rw [confirmAll_coil]
  exact hx

theorem senseCompletes (R : Rules pre .any c) {s : State} {ch : Fin 8} (made : Image) (h : c.mid s)
    (hx : s.exchange ch ≠ .idle) : c.inv (s.senseCompletes ch made) := by
  cases hw : s.coil.wave with
  | none =>
    simp only [State.senseCompletes, hw]
    exact R.settles trivial h
  | some w =>
    rw [senseCompletes_eq ch made hw]
    exact R.senseProgress false (R.sensedOnce_mid made h hw hx)

/-- A property that meets its rules is kept by every effect of the coil chain unit. -/
theorem chainEffect (R : Rules pre .any c) {s u : State} (he : ChainEffect s u) (h : c.mid s) : c.inv u := by
  cases he with
  | awaitsWriteEcho ch n hx | awaitsSenseEcho ch n hx => exact R.settles trivial (R.exchange ch _ trivial h (by simp [hx]))
  | latches ch n hx => exact R.chainLatches h (by simp [hx])
  | failsWrite ch n hx => exact R.writeAttemptFails n h (by simp [hx])
  | senses ch n made hx => exact R.senseCompletes made h (by simp [hx])
  | failsSense ch n hx => exact R.senseAttemptFails n h (by simp [hx])
  | endsTimedWait w hw hstage => exact R.endTimedWait h hw rfl rfl
  | endsInterval ch hx => exact R.settles trivial (R.exchange ch _ trivial h (by simp [hx]))
  | reachesDeadline => exact R.senseProgress true h

/-- And by every step. -/
theorem step (R : Rules pre .any c) {s t : State} (hstep : Machine.step s = .next t)
    (hpre : ∀ u, Beside s u → pre u) (hmid : ∀ u, c.inv u → c.mid u) (h : c.inv s) : c.inv t :=
  R.toBlockRules.step hstep hpre h fun u _ hu he => R.chainEffect he (hmid u hu)

/-- Two properties together are kept where the second is kept wherever the first is. -/
theorem and {b : Claim} (B : Rules pre .any b) (R : Rules pre b c) : Rules pre .any (b.and c) where
  toBlockRules := B.toBlockRules.and R.toBlockRules
  exchange ch x _ h hx := ⟨B.exchange ch x trivial h.1 hx, R.exchange ch x h.1 h.2 hx⟩
  rewaves _ h hw hr := ⟨B.rewaves trivial h.1 hw hr, R.rewaves h.1 h.2 hw hr⟩
  marks _ h hw hu := ⟨B.marks trivial h.1 hw hu, R.marks h.1 h.2 hw hu⟩
  faultsWave k p ch rs _ h hw := ⟨B.faultsWave k p ch rs trivial h.1 hw, R.faultsWave k p ch rs h.1 h.2 hw⟩
  degrades _ h hw hr := ⟨B.degrades trivial h.1 hw hr, R.degrades h.1 h.2 hw hr⟩
  confirms f chs _ h hw hr hu hc hn :=
    ⟨B.confirms f chs trivial h.1 hw hr hu hc hn, R.confirms f chs h.1 h.2 hw hr hu hc hn⟩
  ends _ h hw := ⟨B.ends trivial h.1 hw, R.ends h.1 h.2 hw⟩
  settles _ h := ⟨B.settles trivial h.1, R.settles h.1 h.2⟩

end Rules

end

end Sys2Proof.Kept
end

section
/-! Every step keeps the tables canonical (log 22): each operation writes a table by `Table.put`, filters it, takes another
canonical one or empties it. -/

namespace Sys2Proof.Canonicity

open Sys2Proof.Machine Sys2Proof.Laws Sys2Proof.Effects Sys2Proof.Kept

/-! ### Tables written entry by entry -/

/-- Entries put one after another keep what one put keeps. -/
theorem foldl_put_keeps {α β : Type} [DecidableEq α] {d : α} {P : Table α → Prop} (l : List β) (index : β → Nat)
    (value : β → α) (hput : ∀ t, ∀ x ∈ l, P t → P (Table.put d t (index x) (value x))) {t : Table α} (h : P t) :
    P (l.foldl (fun t x => t.put d (index x) (value x)) t) := by
  induction l generalizing t with
  | nil => exact h
  | cons x l ih =>
    exact ih (fun t y hy => hput t y (List.mem_cons_of_mem x hy)) (hput t x (List.mem_cons_self ..) h)

theorem wf_foldl_put {α β : Type} [DecidableEq α] {d : α} (l : List β) (index : β → Nat) (value : β → α) {t : Table α}
    (h : Table.wf d t) : Table.wf d (l.foldl (fun t x => t.put d (index x) (value x)) t) :=
  foldl_put_keeps (P := Table.wf d) l index value (fun _ _ _ ht => table_wf_put d _ _ _ ht) h

theorem wf_plannedHoldings {h : Holdings} (hwf : Table.wf none h) (p : Plan) :
    Table.wf none (plannedHoldings h p) :=
  wf_foldl_put _ _ _ (wf_foldl_put _ _ _ (wf_foldl_put p.opens id (fun _ => none) hwf))

theorem wf_startingTarget {h : Holdings} (hwf : Table.wf none h) (mode : StepMode) (effective : BitVec 9) :
    Table.wf none (startingTarget mode h effective) := by
  cases mode with
  | replace | clear => exact table_wf_filter _ _ _ hwf
  | add => exact hwf

theorem wf_exchangesSet {t : Table Exchange} (h : Table.wf .idle t) (f : Nat → Exchange) (chains : List Nat) :
    Table.wf .idle (exchangesSet t f chains) :=
  wf_foldl_put chains id f h

/-! ### The operations -/

theorem canonical_setWear {s : State} (h : s.Canonical) (r : Nat) (w : WearRecord) : (s.setWear r w).Canonical :=
  { h with wear := table_wf_put _ _ _ _ h.wear }

theorem canonical_handNotice {s : State} (h : s.Canonical) (n : Notice) : (s.handNotice n).Canonical := by
  unfold State.handNotice
  split <;> exact { h with }

theorem canonical_addWear {s : State} (h : s.Canonical) (r weight : Nat) : (s.addWear r weight).Canonical := by
  have hcounted := canonical_setWear h r { s.wearOf r with count := addedWear (s.wearOf r).count weight }
  unfold State.addWear
  dsimp only
  split_ifs
  · exact canonical_handNotice (canonical_setWear (canonical_handNotice hcounted _) _ _) _
  · exact canonical_handNotice (canonical_setWear hcounted _ _) _
  · exact canonical_handNotice hcounted _
  · exact hcounted

theorem canonical_degrade {s : State} (h : s.Canonical) (r : Nat) : (s.degrade r).Canonical := by
  unfold State.degrade
  split
  · exact canonical_setWear h _ _
  · exact canonical_handNotice (canonical_setWear h _ _) _
  · exact h

theorem canonical_confirm {s : State} (h : s.Canonical) (close : Bool) (r : Nat) : (s.confirm close r).Canonical :=
  canonical_addWear (s := { s with
      engine.actual := s.engine.actual.put .opened r (if close then .closed else .opened),
      engine.pendingOpen := s.engine.pendingOpen.filter (fun x => x ≠ r),
      engine.pendingClose := s.engine.pendingClose.filter (fun x => x ≠ r) })
    { h with actual := table_wf_put _ _ _ _ h.actual } _ _

theorem canonical_confirmEach (close : Bool) (rs : List Nat) {s : State} (h : s.Canonical) :
    (s.confirmEach close rs).Canonical :=
  List.foldlRecOn rs _ (motive := State.Canonical) h fun _ hu r _ => canonical_confirm hu close r

theorem canonical_confirmAll {s : State} (h : s.Canonical) (close : Bool) (rs : List Nat) :
    (s.confirmAll close rs).Canonical := by
  obtain ⟨p, n, -, heq⟩ := confirmAll_apart s close rs
  rw [heq]
  exact { canonical_confirmEach close (s.confirmOrder close rs) h with }

theorem canonical_fault {s : State} (h : s.Canonical) (k : FaultKind) (p : FaultPhase) (ch : Option (Fin 8))
    (rs : List Nat) : (s.fault k p ch rs).Canonical := by
  unfold State.fault
  split
  · exact h
  · exact { h with }

theorem canonical_formWave {s : State} (h : s.Canonical) (close : Bool) (w : Nat) : (s.formWave close w).Canonical :=
  { h with
    images := wf_foldl_put (touchedChains _) id (fun c => s.newImage c _ close) h.images
    exchanges := wf_foldl_put (touchedChains _) id (fun _ => Exchange.writing 1 .shifting) h.exchanges }

theorem canonical_lockOut {s : State} (h : s.Canonical) : s.lockOut.Canonical := by
  have hlocked := lockOut_locksOutTo s
  have hcontext : s.lockOut.resolver.context = none := by
    cases hctx : s.resolver.context with
    | none => rw [hlocked.idleResolver hctx, hctx]
    | some ctx => rw [hlocked.cancels ctx hctx]
  rw [hlocked.rest]
  exact { h with
    exchanges := table_wf_nil _, actual := table_wf_nil _, holdings := table_wf_nil _, baseMap := table_wf_nil _
    base := by simp [hcontext], target := by simp [hcontext] }

/-- What is stored word by word keeps what one word stored keeps. -/
theorem storeWords_keeps {P : State → Prop} {store : State → Nat → Word → State} {size : Nat}
    (hstore : ∀ s i w, i < size → P s → P (store s i w)) (start : Nat) (ws : List Word) (hfits : Fits size start ws)
    {s : State} (h : P s) : P (storeWords store s start ws) := by
  induction ws generalizing s start with
  | nil => exact h
  | cons w ws ih =>
    have hroom : start + (ws.length + 1) ≤ size := by simpa [Fits] using hfits
    exact ih (start + 1) (.inr (by omega)) (hstore s start w (by omega) h)

theorem canonical_store {store : State → Nat → Word → State} {size : Nat} {topology : Bool}
    (hs : SpaceStore store size topology) {s : State} (i : Nat) (w : Word) (h : s.Canonical) :
    (store s i w).Canonical := by
  cases hs with
  | relayMap => exact { h with relayMap := table_wf_put _ _ _ _ h.relayMap }
  | cls => exact { h with classes := table_wf_put _ _ _ _ h.classes }
  | ports =>
    unfold storePort
    split
    · exact { h with ports := table_wf_put _ _ _ _ h.ports }
    · exact h
  | sites => exact { h with sites := table_wf_put _ _ _ _ h.sites }
  | pins =>
    unfold storePin
    split
    · exact { h with pinMap := table_wf_put _ _ _ _ h.pinMap }
    · exact h
  | portMap =>
    unfold storePortMap
    split
    · exact { h with portMap := table_wf_put _ _ _ _ h.portMap }
    · exact h
  | directory =>
    unfold storeDir
    split
    · exact { h with directory := table_wf_put _ _ _ _ h.directory }
    · exact h
  | entries =>
    unfold storeEntry
    split
    · exact { h with pool := table_wf_put _ _ _ _ h.pool }
    · exact h
  | wear =>
    unfold storeWear
    dsimp only
    split_ifs
    · exact { h with wear := table_wf_put _ _ _ _ h.wear }
    · split
      · exact { h with wear := table_wf_put _ _ _ _ h.wear }
      · exact h
  | config => exact { h with }

theorem canonical_beginReset {s : State} (h : s.Canonical) (source : ResetSource) (lost : Bool) :
    (s.beginReset source lost).Canonical := by
  have hsoft : (State.softValues
      { s with control.resetting := some { source := source, linkLost := lost } }).Canonical :=
    { h with
      holdings := table_wf_nil _, baseMap := table_wf_nil _, actual := table_wf_nil _, images := table_wf_nil _
      exchanges := table_wf_nil _, base := nofun, target := nofun }
  unfold State.beginReset
  dsimp only
  split_ifs
  · exact { hsoft with
      relayMap := table_wf_nil _, classes := table_wf_nil _, ports := table_wf_nil _, sites := table_wf_nil _
      pinMap := table_wf_nil _, portMap := table_wf_nil _, directory := table_wf_nil _, pool := table_wf_nil _
      wear := table_wf_nil _ }
  · exact hsoft

/-- That every table is canonical, which holds between any two operations. -/
def claim : Claim := ⟨State.Canonical, State.Canonical, State.Canonical, State.Canonical⟩

theorem rules (pre : State → Prop) : Rules pre .any claim where
  beside hb _ h := by
    obtain ⟨p, n, q, rfl⟩ := hb
    exact { h with }
  raise _ _ h := { h with }
  guards _ h _ _ := { h with }
  unguarded _ h _ := h
  rests _ h _ := h
  opens _ h _ _ := canonical_formWave (by exact { h with }) _ _
  closes _ h _ _ _ := canonical_formWave (by exact { h with }) _ _
  completes _ h _ _ _ := { h with baseMap := table_wf_nil _ }
  suspends _ _ _ h := { h with }
  locksOut _ h := canonical_lockOut h
  guarded _ h _ := h
  heats _ h _ := { h with }
  faults _ _ _ _ _ h := canonical_fault h _ _ _ _
  resumes _ h _ _ := { h with }
  rollsBack _ _ h _ _ _ :=
    ⟨fun _ => { h with holdings := h.baseMap },
      fun _ => { h with holdings := h.baseMap, base := nofun, target := nofun }⟩
  safeOpens _ _ h _ _ :=
    ⟨fun _ => { h with holdings := table_wf_nil _ },
      fun _ => { h with holdings := table_wf_nil _, base := nofun, target := nofun }⟩
  notesAbort _ h _ := { h with }
  empties _ h := { h with }
  latches _ h _ := { h with }
  takes _ h _ _ _ _ := { h with holdings := wf_plannedHoldings h.holdings _, baseMap := h.holdings }
  halts _ _ _ h := { h with }
  leavesHalt _ _ _ h := { h with }
  changesMode _ _ _ _ h := { h with }
  accepts _ _ _ _ h _ _ :=
    { h with
      base := by rintro _ ⟨⟩; exact h.holdings
      target := by rintro _ ⟨⟩; exact wf_startingTarget h.holdings _ _ }
  records _ _ h := { h with base := nofun, target := nofun }
  stages _ _ h _ _ := { h with base := nofun, target := nofun }
  exchange _ _ _ h _ := { h with exchanges := table_wf_put _ _ _ _ h.exchanges }
  rewaves _ h _ _ := { h with }
  marks {_ _ rs} _ h _ _ := { h with actual := wf_foldl_put rs id (fun _ => Contact.unknown) h.actual }
  faultsWave _ _ _ _ _ h _ := canonical_fault h _ _ _ _
  degrades _ h _ _ := canonical_degrade h _
  confirms f chains _ h _ _ _ _ _ :=
    canonical_confirmAll (by exact { h with exchanges := wf_exchangesSet h.exchanges f chains }) _ _
  ends _ h _ := { h with exchanges := table_wf_nil _ }
  settles _ h := h
  stores start ws hs _ hfits _ h :=
    storeWords_keeps (P := State.Canonical) (fun _ i w _ hu => canonical_store hs i w hu) start ws hfits h
  takesNotices _ _ h := { h with }
  validates _ _ h := { h with }
  entersRun _ h _ _ := { h with }
  entersConfigure _ h _ _ _ _ _ := { h with }
  acknowledges _ _ h := { h with }
  movesLines _ _ _ _ h := { h with }
  resets source lost _ h := canonical_beginReset h source lost
  recordsLinkLoss _ h _ := { h with }
  endsReset {s r} straps _ h _ := by
    unfold State.finishReset
    dsimp only
    split_ifs <;> exact { h with }

theorem step_canonical {s t : State} (hstep : step s = .next t) (h : s.Canonical) : t.Canonical :=
  (rules fun _ => True).step hstep (fun _ _ => trivial) (fun _ hu => hu) h

end Sys2Proof.Canonicity
end

section
/-! The pair lookup and the entries of a resolution: what each gives, and what every target a resolution builds keeps
(R5, R41 to R47). -/

namespace Sys2Proof.Resolving

open Sys2Proof.Machine Sys2Proof.Laws

/-! ### The pair lookup (R5) -/

/-- An entry that is not what an unlisted index holds is listed. -/
theorem mem_of_get_ne {α : Type} {d : α} {t : Table α} {i : Nat} (h : Table.get d t i ≠ d) :
    (i, Table.get d t i) ∈ t := by
  induction t with
  | nil => exact absurd rfl h
  | cons e t ih =>
    obtain ⟨k, v⟩ := e
    by_cases hk : i = k
    · simp [Table.get, hk]
    · simp only [Table.get, hk, if_false] at h ⊢
      exact List.mem_cons_of_mem _ (ih h)

theorem relay_of_mem {s : State} (h : Table.wf RelayEntry.absent s.topology.relayMap) {r : Nat} {e : RelayEntry}
    (hmem : (r, e) ∈ s.topology.relayMap) : s.relay r = e :=
  ((table_mem_iff_get _ _ h r e).mp hmem).2

theorem mem_relayMap_of_present {s : State} {r : Nat} (h : (s.relay r).present = true) :
    (r, s.relay r) ∈ s.topology.relayMap :=
  mem_of_get_ne (d := RelayEntry.absent) fun habsent => by
    rw [State.relay, habsent] at h
    cases h

theorem joins_iff (e : RelayEntry) (x y : Nat) :
    e.joins x y = true ↔
      e.present = true ∧ (e.a.toNat = x ∧ e.b.toNat = y ∨ e.a.toNat = y ∧ e.b.toNat = x) := by
  simp [RelayEntry.joins]

/-- In a canonical relay map the listed relays that join two nodes are the present ones that do. -/
theorem mem_relayMap_joins_iff {s : State} (h : Table.wf RelayEntry.absent s.topology.relayMap) (r x y : Nat) :
    (∃ e, (r, e) ∈ s.topology.relayMap ∧ e.joins x y = true) ↔ s.JoinsPair r x y := by
  constructor
  · rintro ⟨e, hmem, hjoins⟩
    rw [← relay_of_mem h hmem] at hjoins
    exact (joins_iff _ x y).mp hjoins
  · intro hpair
    exact ⟨_, mem_relayMap_of_present hpair.1, (joins_iff _ x y).mpr hpair⟩

/-- The relay that the lookup finds is listed and joins the two nodes. -/
theorem mem_of_pairLookup {s : State} {x y r : Nat} (h : s.pairLookup x y = some r) :
    ∃ e, (r, e) ∈ s.topology.relayMap ∧ e.joins x y = true := by
  obtain ⟨⟨_, e⟩, hfind, rfl⟩ := Option.map_eq_some_iff.mp h
  exact ⟨e, List.mem_of_find?_eq_some hfind, List.find?_some (p := fun e : Nat × RelayEntry => e.2.joins x y) hfind⟩

theorem pairLookup_eq_none_iff {s : State} (h : Table.wf RelayEntry.absent s.topology.relayMap) (x y : Nat) :
    s.pairLookup x y = none ↔ ∀ r, ¬ s.JoinsPair r x y := by
  simp only [State.pairLookup, Option.map_eq_none_iff, List.find?_eq_none, Prod.forall, ← mem_relayMap_joins_iff h,
    not_exists, not_and]

/-- In a list of rising indices the first entry that meets a test has the lowest index of those that do. -/
theorem le_of_find?_eq_some {α : Type} {l : List (Nat × α)} (h : l.Pairwise (fun a b => a.1 < b.1))
    {p : Nat × α → Bool} {e : Nat × α} (hfind : l.find? p = some e) {x : Nat × α} (hx : x ∈ l) (hp : p x = true) :
    e.1 ≤ x.1 := by
  induction l with
  | nil => cases hx
  | cons y l ih =>
    obtain ⟨hy, hl⟩ := List.pairwise_cons.mp h
    by_cases hpy : p y = true
    · have hey : y = e := by simpa [List.find?_cons, hpy] using hfind
      subst hey
      rcases List.mem_cons.mp hx with rfl | hx
      · exact le_refl _
      · exact Nat.le_of_lt (hy x hx)
    · rw [List.find?_cons_of_neg hpy] at hfind
      rcases List.mem_cons.mp hx with rfl | hx
      · exact absurd hp hpy
      · exact ih hl hfind hx

/-- Settles O30: the listed positions rise, so the first that joins the nodes is the lowest. -/
theorem pairLookupTakesTheLowestRelay : Obligations.PairLookupTakesTheLowestRelay := by
  intro s x y hcanonical
  have hwf := hcanonical.relayMap
  have lowest : ∀ {r r'}, s.pairLookup x y = some r → s.JoinsPair r' x y → r ≤ r' := by
    intro r r' hr hr'
    obtain ⟨e, hfind, rfl⟩ := Option.map_eq_some_iff.mp hr
    obtain ⟨e', hmem, hjoins⟩ := (mem_relayMap_joins_iff hwf r' x y).mpr hr'
    exact le_of_find?_eq_some hwf.1 hfind hmem hjoins
  refine ⟨fun r => ⟨fun hr => ⟨?_, fun r' hlt hr' => ?_⟩, fun ⟨hr, hmin⟩ => ?_⟩, pairLookup_eq_none_iff hwf x y⟩
  · exact (mem_relayMap_joins_iff hwf r x y).mp (mem_of_pairLookup hr)
  · exact absurd (lowest hr hr') (by omega)
  · cases hlookup : s.pairLookup x y with
    | none => exact absurd hr ((pairLookup_eq_none_iff hwf x y).mp hlookup r)
    | some q =>
      have hq := (mem_relayMap_joins_iff hwf q x y).mp (mem_of_pairLookup hlookup)
      have hle := lowest hlookup hr
      have hge : ¬ q < r := fun hlt => hmin q hlt hq
      rw [show q = r by omega]

/-! ### The two tests of a relay (R42, R43) -/

section

variable {s : State} {ctx : Resolution} {o : Owner} {index : Nat} {t : Holdings} {r : Nat}

theorem retiredPasses_iff : s.retiredPasses ctx o r = true ↔ s.NotBarred ctx o r := by
  simp [State.retiredPasses, State.NotBarred, imp_iff_not_or]

theorem passes_iff : s.passes ctx o t r = true ↔ s.Admits ctx t o r := by
  simp [State.passes, State.Admits, retiredPasses_iff]

/-- A relay passes the two tests or is barred by one of them. -/
theorem admits_or_bars (s : State) (ctx : Resolution) (o : Owner) (t : Holdings) (r : Nat) : s.Admits ctx t o r ∨ ∃ c, s.Bars ctx t o r c := by
  by_cases hbarred : s.NotBarred ctx o r
  · cases howner : ownerOf t r with
    | none => exact .inl ⟨hbarred, .inl howner⟩
    | some x =>
      by_cases hx : x = o
      · exact .inl ⟨hbarred, .inr (hx ▸ howner)⟩
      · exact .inr ⟨_, .inr ⟨hbarred, x, howner, hx, rfl⟩⟩
  · exact .inr ⟨_, .inl ⟨hbarred, rfl⟩⟩

theorem testRelay_of_admits (index : Nat) (h : s.Admits ctx t o r) : s.testRelay ctx o index t r = .ok () := by
  have hretired := retiredPasses_iff.mpr h.1
  unfold State.testRelay
  rw [if_pos hretired]
  rcases h.2 with howner | howner <;> simp [howner]

theorem testRelay_of_bars (index : Nat) {c : Conflict} (h : s.Bars ctx t o r c) :
    s.testRelay ctx o index t r = .error { c with owner := some o, entryIndex := some index } := by
  unfold State.testRelay
  rcases h with ⟨hbarred, rfl⟩ | ⟨hpasses, x, howner, hx, rfl⟩
  · rw [← retiredPasses_iff] at hbarred
    rw [if_neg hbarred]
  · rw [← retiredPasses_iff] at hpasses
    simp [hpasses, howner, hx]

theorem admits_of_testRelay (h : s.testRelay ctx o index t r = .ok ()) : s.Admits ctx t o r := by
  rcases admits_or_bars s ctx o t r with hadmits | ⟨c, hbars⟩
  · exact hadmits
  · rw [testRelay_of_bars index hbars] at h
    cases h

end

/-! ### What an entry gives -/

theorem ownerOf_give (t : Holdings) (o : Owner) (r x : Nat) :
    ownerOf (give t o r) x = if x = r then some o else ownerOf t x :=
  table_get_put _ _ _ _ _

theorem givenTo_give (t : Holdings) (o : Owner) (r : Nat) : GivenTo t (give t o r) o [r] := by
  intro x
  simp [ownerOf_give]

theorem givenTo_give_give (t : Holdings) (o : Owner) (a b : Nat) :
    GivenTo t (give (give t o a) o b) o [a, b] := by
  intro x
  by_cases ha : x = a <;> by_cases hb : x = b <;> simp [ownerOf_give, ha, hb]

section

variable {s : State} {ctx : Resolution} {o : Owner} {index : Nat} {t : Holdings} {p q k a b : Nat}

theorem givePair_of_admits (ha : s.Admits ctx t o a) (hb : s.Admits ctx t o b) :
    s.givePair ctx o index t a b = .ok (give (give t o a) o b) := by
  simp [State.givePair, testRelay_of_admits index ha, testRelay_of_admits index hb]

theorem givePair_of_bars_pin {c : Conflict} (ha : s.Bars ctx t o a c) :
    s.givePair ctx o index t a b = .error { c with owner := some o, entryIndex := some index } := by
  simp [State.givePair, testRelay_of_bars index ha]

theorem givePair_of_bars_port {c : Conflict} (ha : s.Admits ctx t o a) (hb : s.Bars ctx t o b c) :
    s.givePair ctx o index t a b = .error { c with owner := some o, entryIndex := some index } := by
  simp [State.givePair, testRelay_of_admits index ha, testRelay_of_bars index hb]

theorem reuseTrunk_eq_some_iff : s.reuseTrunk ctx o t p q k = some (a, b) ↔ s.Reuses ctx t o p q k a b := by
  unfold State.reuseTrunk State.Reuses
  cases s.pairLookup (64 + k) q with
  | none => simp
  | some port =>
    cases s.pairLookup p (64 + k) with
    | none => simp
    | some pin =>
      simp only [← passes_iff, Option.ite_none_right_eq_some, Option.some.injEq, Prod.mk.injEq]
      constructor
      · rintro ⟨⟨howner, hpasses⟩, rfl, rfl⟩
        exact ⟨rfl, howner, rfl, hpasses⟩
      · rintro ⟨rfl, howner, rfl, hpasses⟩
        exact ⟨⟨howner, hpasses⟩, rfl, rfl⟩

/-- No relay at the node is listed with an owner, which in any table are those that have one. -/
theorem untouched_of_forall (h : Table.wf none t) (n : Nat) :
    s.untouched t n = true ↔
      ∀ r, ownerOf t r ≠ none → (s.relay r).a.toNat ≠ n ∧ (s.relay r).b.toNat ≠ n := by
  simp only [State.untouched, List.all_eq_true, Bool.or_eq_true, decide_eq_true_eq, Option.isNone_iff_eq_none,
    Prod.forall]
  constructor
  · intro hall r hr
    exact (hall r _ (mem_of_get_ne hr)).resolve_left hr
  · intro hall r x hmem
    rw [table_mem_iff_get none t h] at hmem
    exact .inr (hall r (by rw [ownerOf, hmem.2]; exact hmem.1))

theorem freshTrunk_eq_some_iff (h : Table.wf none t) :
    s.freshTrunk ctx o t p q k = some (a, b) ↔ s.TakesFresh ctx t o p q k a b := by
  unfold State.freshTrunk State.TakesFresh
  cases s.pairLookup p (64 + k) with
  | none => simp
  | some pin =>
    cases s.pairLookup (64 + k) q with
    | none => simp
    | some port =>
      simp only [← untouched_of_forall h, ← retiredPasses_iff, Option.ite_none_right_eq_some, Option.some.injEq,
        Prod.mk.injEq]
      constructor
      · rintro ⟨⟨hfree, hpin, hport⟩, rfl, rfl⟩
        exact ⟨rfl, rfl, hfree, hpin, hport⟩
      · rintro ⟨rfl, rfl, hfree, hpin, hport⟩
        exact ⟨⟨hfree, hpin, hport⟩, rfl, rfl⟩

/-- The first trunk that gives a pair. -/
theorem findSome?_range_eq_some {α : Type} {f : Nat → Option α} {n k : Nat} {x : α} (hk : k < n) (hx : f k = some x)
    (hmin : ∀ j, j < k → f j = none) : (List.range n).findSome? f = some x := by
  induction n with
  | zero => exact absurd hk (Nat.not_lt_zero k)
  | succ n ih =>
    rw [List.range_succ, List.findSome?_append]
    by_cases hkn : k < n
    · simp [ih hkn]
    · have hn : k = n := by omega
      subst hn
      have hnone : (List.range k).findSome? f = none := by simpa using hmin
      simp [hnone, hx]

theorem reuseTrunk_eq_none (h : ∀ x y, ¬ s.Reuses ctx t o p q k x y) : s.reuseTrunk ctx o t p q k = none :=
  Option.eq_none_iff_forall_ne_some.mpr fun ⟨x, y⟩ hxy => h x y (reuseTrunk_eq_some_iff.mp hxy)

theorem freshTrunk_eq_none (hwf : Table.wf none t) (h : ∀ x y, ¬ s.TakesFresh ctx t o p q k x y) :
    s.freshTrunk ctx o t p q k = none :=
  Option.eq_none_iff_forall_ne_some.mpr fun ⟨x, y⟩ hxy => h x y ((freshTrunk_eq_some_iff hwf).mp hxy)

theorem autoTrunk_of_reuses (hk : k < 16) (h : s.Reuses ctx t o p q k a b)
    (hmin : ∀ j, j < k → ∀ x y, ¬ s.Reuses ctx t o p q j x y) : s.autoTrunk ctx o t p q = some (a, b) := by
  have hfind : (List.range 16).findSome? (fun k => s.reuseTrunk ctx o t p q k) = some (a, b) :=
    findSome?_range_eq_some hk (reuseTrunk_eq_some_iff.mpr h) fun j hj => reuseTrunk_eq_none (hmin j hj)
  simp only [State.autoTrunk, hfind]

theorem autoTrunk_of_no_reuse (h : ∀ j, j < 16 → ∀ x y, ¬ s.Reuses ctx t o p q j x y) :
    s.autoTrunk ctx o t p q = (List.range 16).findSome? (fun k => s.freshTrunk ctx o t p q k) := by
  have hfind : (List.range 16).findSome? (fun k => s.reuseTrunk ctx o t p q k) = none := by
    simpa using fun j hj => reuseTrunk_eq_none (h j hj)
  simp only [State.autoTrunk, hfind]

end

/-- Settles O32: each clause is a branch of `applyEntry`, whose tests and trunk passes are those of the claim. -/
theorem entriesGiveTheirRelaysOrFail : Obligations.EntriesGiveTheirRelaysOrFail := by
  intro s ctx t index hwf entry gives fails
  refine ⟨fun r hentry => ?direct, fun pin port trunk hentry => ?path⟩
  case direct =>
    have hcommon : s.applyEntry ctx .common t index = s.applyDirect ctx index t r.toNat := by
      simp only [State.applyEntry, show s.store.pool.get .initial index = _ from hentry]
    refine ⟨fun site => ?_, fun habsent => ?_, fun hpresent => ⟨fun c hbars => ?_, fun hadmits => ?_⟩⟩
    · simp only [State.applyEntry, show s.store.pool.get .initial index = _ from hentry]
    · change s.applyEntry ctx .common t index = _
      rw [hcommon, State.applyDirect, habsent]
      rfl
    · change s.applyEntry ctx .common t index = _
      simp [hcommon, State.applyDirect, hpresent, testRelay_of_bars index hbars]
    · refine ⟨give t .common r.toNat, ?_, givenTo_give t .common r.toNat⟩
      simp [hcommon, State.applyDirect, hpresent, testRelay_of_admits index hadmits]
  case path =>
    refine ⟨by simp only [State.applyEntry, show s.store.pool.get .initial index = _ from hentry], fun site => ?_⟩
    intro o line node
    have hsite : s.applyEntry ctx o t index = s.applyPath ctx site index t pin port trunk := by
      simp only [State.applyEntry, show s.store.pool.get .initial index = _ from hentry, o]
    refine ⟨fun hunmapped => ?_, fun l n hline hnode => ?_⟩
    · change s.applyEntry ctx o t index = _
      rw [hsite, State.applyPath]
      rcases hunmapped with h | h
      · rw [show s.topology.pinMap.get none _ = none from h]
      · rw [show s.topology.portMap.get none _ = none from h]
        cases s.topology.pinMap.get none (site.val * 32 + pin.toNat) <;> rfl
    · intro p q
      refine ⟨fun k htrunk => ?fixed, fun htrunk => ?auto⟩
      case fixed =>
        intro x
        have happly : s.applyEntry ctx o t index = s.applyFixed ctx o index t p q k.toNat := by
          rw [hsite, State.applyPath, show s.topology.pinMap.get none _ = some l from hline,
            show s.topology.portMap.get none _ = some n from hnode, htrunk]
        refine ⟨fun hpin => ?_, fun a ha => ⟨fun hport => ?_, fun b hb => ?_⟩⟩
        · change s.applyEntry ctx o t index = _
          simp only [happly, State.applyFixed, show s.pairLookup p (64 + k.toNat) = none from hpin, x]
        · change s.applyEntry ctx o t index = _
          simp only [happly, State.applyFixed, show s.pairLookup p (64 + k.toNat) = some a from ha,
            show s.pairLookup (64 + k.toNat) q = none from hport, x]
        · have hpair : s.applyEntry ctx o t index = s.givePair ctx o index t a b := by
            simp only [happly, State.applyFixed, show s.pairLookup p (64 + k.toNat) = some a from ha,
              show s.pairLookup (64 + k.toNat) q = some b from hb]
          exact ⟨fun c hbars => hpair.trans (givePair_of_bars_pin hbars),
            fun hadmits c hbars => hpair.trans (givePair_of_bars_port hadmits hbars),
            fun ha hb => ⟨_, hpair.trans (givePair_of_admits ha hb), givenTo_give_give t o a b⟩⟩
      case auto =>
        have happly : s.applyEntry ctx o t index = s.applyAuto ctx o index t p q := by
          rw [hsite, State.applyPath, show s.topology.pinMap.get none _ = some l from hline,
            show s.topology.portMap.get none _ = some n from hnode, htrunk]
        have taken : ∀ {a b}, s.autoTrunk ctx o t p q = some (a, b) → gives o [a, b] := fun {a b} h =>
          ⟨_, by simp only [happly, State.applyAuto, h], givenTo_give_give t o a b⟩
        refine ⟨fun k a b hk hreuse hmin => taken (autoTrunk_of_reuses hk hreuse hmin), fun hnone => ⟨?_, ?_⟩⟩
        · intro k a b hk hfresh hmin
          refine taken ((autoTrunk_of_no_reuse hnone).trans ?_)
          exact findSome?_range_eq_some hk ((freshTrunk_eq_some_iff hwf).mpr hfresh)
            fun j hj => freshTrunk_eq_none hwf (hmin j hj)
        · intro hnofresh
          have hfind : s.autoTrunk ctx o t p q = none := by
            rw [autoTrunk_of_no_reuse hnone]
            simpa using fun j hj => freshTrunk_eq_none hwf (hnofresh j hj)
          change s.applyEntry ctx o t index = _
          simp only [happly, State.applyAuto, hfind]

end Sys2Proof.Resolving
end

section
/-! The target of a resolution: the order in which its entries are applied, what every target keeps, and the plan that
carries the base to it (R30 to R32, R41 to R51). -/

namespace Sys2Proof.Targets

open Sys2Proof.Machine Sys2Proof.Laws Sys2Proof.Resolving

/-! ### The order of the entries (R41) -/

theorem applyEntries_eq (s : State) (ctx : Resolution) (o : Owner) (run : List Nat) (t : Holdings) :
    s.applyEntries ctx o run t = run.foldlM (fun t i => s.applyEntry ctx o t i) t := by
  induction run generalizing t with
  | nil => rfl
  | cons i run ih =>
    rw [List.foldlM_cons, State.applyEntries]
    cases s.applyEntry ctx o t i with
    | error c => rfl
    | ok u => exact ih u

/-- Every entry of the run for one owner after another. -/
theorem applyOwners_eq (s : State) (ctx : Resolution) (run : List Nat) (owners : List Owner) (t : Holdings) :
    s.applyOwners ctx run owners t =
      (owners.flatMap (fun o => run.map (fun i => (o, i)))).foldlM (fun t x => s.applyEntry ctx x.1 t x.2) t := by
  induction owners generalizing t with
  | nil => rfl
  | cons o owners ih =>
    rw [List.flatMap_cons, List.foldlM_append, State.applyOwners, applyEntries_eq, List.foldlM_map]
    cases run.foldlM (fun t i => s.applyEntry ctx o t i) t with
    | error c => rfl
    | ok u => exact ih u

theorem run_eq (ctx : Resolution) :
    ctx.run = match ctx.inUse with
      | some u => List.range' u.first u.count
      | none => [] := by
  unfold Resolution.run
  cases ctx.inUse with
  | none => rfl
  | some u => exact (List.range'_eq_map_range ..).symm

/-! ### What a resolution comes to (R39, R41, R48, R51) -/

/-- A resolution that gives a plan has a target whose nets pass, and the plan is the one that carries the base to it. -/
theorem resolve_eq_ok_iff (s : State) (ctx : Resolution) (p : Plan) :
    s.resolve ctx = .ok p ↔ ctx.usable = true ∧
      ∃ target, s.buildTarget ctx = .ok target ∧ s.netCheck target = none ∧ s.planFor ctx target = p := by
  unfold State.resolve
  cases ctx.usable with
  | false => simp
  | true =>
    cases s.buildTarget ctx with
    | error c => simp
    | ok target =>
      cases hnets : s.netCheck target with
      | none => simp [hnets]
      | some c => simp [hnets]

/-! ### Dropping the masked owners (R30, R32) -/

theorem ownerOf_dropMasked {h : Holdings} (hwf : Table.wf none h) (mask : BitVec 9) (r : Nat) :
    ownerOf (dropMasked h mask) r =
      if ∃ o, ownerOf h r = some o ∧ maskHas mask o = true then none else ownerOf h r := by
  have hfilter : Table.wf none (dropMasked h mask) := table_wf_filter _ _ _ hwf
  have hmem : ∀ o, ownerOf (dropMasked h mask) r = some o ↔ ownerOf h r = some o ∧ maskHas mask o = false := by
    intro o
    rw [← Delta.mem_holdings_iff hfilter, ← Delta.mem_holdings_iff hwf]
    simp [dropMasked]
  cases howner : ownerOf h r with
  | none =>
    have hnone : ownerOf (dropMasked h mask) r = none := Option.eq_none_iff_forall_ne_some.mpr fun o ho => by
      have hheld := ((hmem o).mp ho).1
      simp [howner] at hheld
    simp [hnone]
  | some o =>
    by_cases hmask : maskHas mask o = true
    · have hnone : ownerOf (dropMasked h mask) r = none := Option.eq_none_iff_forall_ne_some.mpr fun x hx => by
        obtain ⟨hheld, hfalse⟩ := (hmem x).mp hx
        rw [howner] at hheld
        cases hheld
        simp [hmask] at hfalse
      simp [hnone, hmask]
    · simp [(hmem o).mpr ⟨howner, by simpa using hmask⟩, hmask]

theorem ownerOf_startingTarget {h : Holdings} (hwf : Table.wf none h) (mode : StepMode) (mask : BitVec 9) (r : Nat) :
    ownerOf (startingTarget mode h mask) r =
      if mode ≠ .add ∧ ∃ o, ownerOf h r = some o ∧ maskHas mask o = true then none else ownerOf h r := by
  cases mode with
  | replace | clear => simpa [startingTarget] using ownerOf_dropMasked hwf mask r
  | add => simp [startingTarget]

/-- The owners of an effective mask, in the order in which a resolution takes them. -/
theorem mem_maskedOwners (mask : BitVec 9) (o : Owner) :
    o ∈ allOwners.filter (fun o => maskHas mask o) ↔ maskHas mask o = true := by
  rw [List.mem_filter, and_iff_right]
  cases o with
  | common => decide
  | site k => revert k; decide

/-- Settles O31: `applyOwners` is one fold over the entries of every owner, and `resolve` checks what it gives. -/
theorem resolutionsApplyEntriesInOrder : Obligations.ResolutionsApplyEntriesInOrder := by
  intro s ctx hwf owners run
  have howners : owners = allOwners.filter (fun o => maskHas ctx.effective o) :=
    List.filter_congr fun o _ => by cases o <;> rfl
  refine ⟨fun husable => ?_, fun r => ?_, ?_, fun husable => ⟨fun c hc => ?_, fun target htarget => ⟨?_, fun hnets => ?_⟩⟩⟩
  · simp [State.resolve, husable]
  · rw [ownerOf_startingTarget hwf, howners]
    exact if_congr (and_congr_right fun _ => exists_congr fun o => by rw [mem_maskedOwners, and_comm]) rfl rfl
  · have hrun : run = ctx.run := (run_eq ctx).symm
    rw [howners, hrun, State.buildTarget, applyOwners_eq]
  · simp [State.resolve, husable, hc]
  · intro c hc
    simp [State.resolve, husable, htarget, hc]
  · exact ⟨_, (resolve_eq_ok_iff s ctx _).mpr ⟨husable, target, htarget, hnets, rfl⟩, rfl, rfl, rfl, rfl, rfl, rfl, rfl,
      rfl, rfl, rfl, rfl, rfl⟩

/-! ### What every target keeps -/

/-- Relay `r` may be given to `o` in the target `t`: it is a listed present relay, given to `o` already or not retired for
`o`, and, where the tables are canonical, not held by another owner. -/
structure Givable (s : State) (ctx : Resolution) (o : Owner) (t : Holdings) (r : Nat) : Prop where
  masked : maskHas ctx.effective o = true
  listed : ∃ e, (r, e) ∈ s.topology.relayMap ∧ e.present = true
  notBarred : ownerOf t r = some o ∨ s.NotBarred ctx o r
  free : s.Canonical → ownerOf t r = none ∨ ownerOf t r = some o

section

variable {s : State} {ctx : Resolution} {o : Owner} {P : Holdings → Prop}

theorem listed_of_pairLookup {x y r : Nat} (h : s.pairLookup x y = some r) :
    ∃ e, (r, e) ∈ s.topology.relayMap ∧ e.present = true := by
  obtain ⟨e, hmem, hjoins⟩ := mem_of_pairLookup h
  exact ⟨e, hmem, ((joins_iff e x y).mp hjoins).1⟩

/-- A second relay may be given to the same owner still. -/
theorem Givable.give {t : Holdings} {a b : Nat} (hb : Givable s ctx o t b) :
    Givable s ctx o (Machine.give t o a) b where
  masked := hb.masked
  listed := hb.listed
  notBarred := by
    rw [ownerOf_give]
    split_ifs
    · exact .inl rfl
    · exact hb.notBarred
  free hc := by
    rw [ownerOf_give]
    split_ifs
    · exact .inr rfl
    · exact hb.free hc

theorem givable_of_admits {t : Holdings} {r : Nat} (hmask : maskHas ctx.effective o = true)
    (hlisted : ∃ e, (r, e) ∈ s.topology.relayMap ∧ e.present = true) (h : s.Admits ctx t o r) : Givable s ctx o t r :=
  ⟨hmask, hlisted, .inr h.1, fun _ => h.2⟩

/-- A relay at a node that no held relay touches has no owner. -/
theorem ownerOf_eq_none_of_untouched {t : Holdings} {n r : Nat} (hc : s.Canonical) {x y : Nat}
    (hr : s.pairLookup x y = some r) (hn : n = x ∨ n = y) (hfree : s.untouched t n = true) : ownerOf t r = none := by
  by_contra howner
  obtain ⟨e, hmem, hjoins⟩ := mem_of_pairLookup hr
  have hrelay : s.relay r = e := relay_of_mem hc.relayMap hmem
  have hpair := ((joins_iff e x y).mp hjoins).2
  have hlisted := List.all_eq_true.mp hfree _ (mem_of_get_ne howner)
  simp only [Bool.or_eq_true, Option.isNone_iff_eq_none, decide_eq_true_eq, hrelay] at hlisted
  obtain ⟨ha, hb⟩ := hlisted.resolve_left howner
  rcases hpair with ⟨h1, h2⟩ | ⟨h1, h2⟩ <;> rcases hn with rfl | rfl <;> contradiction

/-- Both relays that the AUTO choice takes may be given. -/
theorem givable_of_autoTrunk {t : Holdings} {p q a b : Nat} (hmask : maskHas ctx.effective o = true)
    (h : s.autoTrunk ctx o t p q = some (a, b)) : Givable s ctx o t a ∧ Givable s ctx o t b := by
  unfold State.autoTrunk at h
  split at h
  next found hfind =>
    cases h
    obtain ⟨k, -, hk⟩ := List.exists_of_findSome?_eq_some hfind
    obtain ⟨hb, howner, ha, hadm⟩ := reuseTrunk_eq_some_iff.mp hk
    exact ⟨givable_of_admits hmask (listed_of_pairLookup ha) hadm,
      hmask, listed_of_pairLookup hb, .inl howner, fun _ => .inr howner⟩
  next hnone =>
    obtain ⟨k, -, hk⟩ := List.exists_of_findSome?_eq_some h
    unfold State.freshTrunk at hk
    split at hk
    next pin port ha hb =>
      obtain ⟨⟨hfree, hpin, hport⟩, hpair⟩ := Option.ite_none_right_eq_some.mp hk
      cases hpair
      exact ⟨⟨hmask, listed_of_pairLookup ha, .inr (retiredPasses_iff.mp hpin),
          fun hc => .inl (ownerOf_eq_none_of_untouched hc ha (.inr rfl) hfree)⟩,
        hmask, listed_of_pairLookup hb, .inr (retiredPasses_iff.mp hport),
          fun hc => .inl (ownerOf_eq_none_of_untouched hc hb (.inl rfl) hfree)⟩
    · cases hk

theorem applyPath_keeps {t u : Holdings} {site : Fin 8} {index : Nat} {pin : BitVec 5} {port : BitVec 4} {trunk : Trunk}
    (hmask : maskHas ctx.effective (.site site) = true)
    (hgive : ∀ t r, Givable s ctx (.site site) t r → P t → P (give t (.site site) r))
    (h : s.applyPath ctx site index t pin port trunk = .ok u) (ht : P t) : P u := by
  have pair : ∀ {a b : Nat}, Givable s ctx (.site site) t a → Givable s ctx (.site site) t b →
      P (give (give t (.site site) a) (.site site) b) := fun ha hb => hgive _ _ hb.give (hgive _ _ ha ht)
  unfold State.applyPath at h
  split at h
  case h_2 => cases h
  split at h
  case h_1 =>
    unfold State.applyFixed at h
    split at h
    · cases h
    · cases h
    next a b ha hb =>
      unfold State.givePair at h
      split at h
      · cases h
      next hta =>
        split at h
        · cases h
        next htb =>
          cases h
          exact pair (givable_of_admits hmask (listed_of_pairLookup ha) (admits_of_testRelay hta))
            (givable_of_admits hmask (listed_of_pairLookup hb) (admits_of_testRelay htb))
  case h_2 =>
    unfold State.applyAuto at h
    split at h
    next a b hauto =>
      cases h
      obtain ⟨ha, hb⟩ := givable_of_autoTrunk hmask hauto
      exact pair ha hb
    · cases h

/-- What an entry that succeeds leaves: the target as it was, or one or two givable relays given. -/
theorem applyEntry_keeps {t u : Holdings} {index : Nat} (hmask : maskHas ctx.effective o = true)
    (hgive : ∀ t r, Givable s ctx o t r → P t → P (give t o r)) (h : s.applyEntry ctx o t index = .ok u) (ht : P t) :
    P u := by
  unfold State.applyEntry at h
  split at h
  · exact applyPath_keeps hmask hgive h ht
  · unfold State.applyDirect at h
    split_ifs at h with hpresent
    split at h
    · cases h
    next htest =>
      cases h
      exact hgive _ _ (givable_of_admits hmask ⟨_, mem_relayMap_of_present hpresent, hpresent⟩ (admits_of_testRelay htest)) ht
  · cases h
    exact ht
  · cases h
    exact ht

/-- What holds of the starting target and is kept wherever a givable relay is given holds of the target. -/
theorem buildTarget_keeps {target : Holdings} (hgive : ∀ o t r, Givable s ctx o t r → P t → P (give t o r))
    (h : s.buildTarget ctx = .ok target) (ht : P ctx.target) : P target := by
  have entries : ∀ (xs : List (Owner × Nat)) (t : Holdings), (∀ x ∈ xs, maskHas ctx.effective x.1 = true) → P t →
      xs.foldlM (fun t x => s.applyEntry ctx x.1 t x.2) t = .ok target → P target := by
    intro xs
    induction xs with
    | nil =>
      intro t _ ht h
      cases h
      exact ht
    | cons x xs ih =>
      intro t hmask ht h
      obtain ⟨hx, hxs⟩ := List.forall_mem_cons.mp hmask
      rw [List.foldlM_cons] at h
      cases hentry : s.applyEntry ctx x.1 t x.2 with
      | error c =>
        rw [hentry] at h
        cases h
      | ok u =>
        rw [hentry] at h
        exact ih u hxs (applyEntry_keeps hx (hgive x.1) hentry ht) h
  rw [State.buildTarget, applyOwners_eq] at h
  refine entries _ _ (fun x hx => ?_) ht h
  simp only [List.mem_flatMap, List.mem_map] at hx
  obtain ⟨o, ho, i, -, rfl⟩ := hx
  exact (mem_maskedOwners _ o).mp ho

/-- A relay keeps its owner while relays are given. -/
theorem buildTarget_keeps_owner {target : Holdings} {r : Nat} (hc : s.Canonical) (h : s.buildTarget ctx = .ok target)
    (howner : ownerOf ctx.target r = some o) : ownerOf target r = some o := by
  refine buildTarget_keeps (P := fun t => ownerOf t r = some o) (fun x t a hgivable ht => ?_) h howner
  rw [ownerOf_give]
  split_ifs with ha
  · subst ha
    rcases hgivable.free hc with hnone | hsame
    · rw [ht] at hnone
      cases hnone
    · rw [← hsame, ht]
  · exact ht

/-- An owner in the target is the starting target's, or a masked owner for whom the relay is not retired. -/
theorem owner_of_buildTarget {target : Holdings} {r : Nat} (h : s.buildTarget ctx = .ok target)
    (howner : ownerOf target r = some o) :
    ownerOf ctx.target r = some o ∨ (maskHas ctx.effective o = true ∧ s.NotBarred ctx o r) := by
  revert o
  refine @(buildTarget_keeps (P := fun t => ∀ o, ownerOf t r = some o →
    ownerOf ctx.target r = some o ∨ (maskHas ctx.effective o = true ∧ s.NotBarred ctx o r))
    (fun x t a hgivable ht o ho => ?_) h fun o ho => .inl ho)
  rw [ownerOf_give] at ho
  split_ifs at ho with ha
  · cases ho
    subst ha
    exact hgivable.notBarred.elim (ht x) fun hfree => .inr ⟨hgivable.masked, hfree⟩
  · exact ht o ho

theorem wf_buildTarget {target : Holdings} (h : s.buildTarget ctx = .ok target) (hwf : Table.wf none ctx.target) :
    Table.wf none target :=
  buildTarget_keeps (P := Table.wf none) (fun _ _ _ _ ht => table_wf_put _ _ _ _ ht) h hwf

/-- Relays held in the target are held in the starting target or listed as present. -/
theorem listed_of_buildTarget {target : Holdings} {r : Nat} (h : s.buildTarget ctx = .ok target)
    (hheld : ownerOf target r ≠ none) :
    ownerOf ctx.target r ≠ none ∨ ∃ e, (r, e) ∈ s.topology.relayMap ∧ e.present = true := by
  revert hheld
  refine buildTarget_keeps (P := fun t => ownerOf t r ≠ none →
    ownerOf ctx.target r ≠ none ∨ ∃ e, (r, e) ∈ s.topology.relayMap ∧ e.present = true)
    (fun o t a hgivable ht hheld => ?_) h .inl
  rw [ownerOf_give] at hheld
  split_ifs at hheld with ha
  · exact .inr (ha ▸ hgivable.listed)
  · exact ht hheld

end

/-! ### Owners, modes and retirement (R30 to R32, R42, R43) -/

/-- With no set in use there is nothing to apply: the target is the starting target. -/
theorem buildTarget_of_no_set {s : State} {ctx : Resolution} (h : ctx.inUse = none) : s.buildTarget ctx = .ok ctx.target := by
  have hrun : ctx.run = [] := by simp [run_eq, h]
  have hnone : ∀ owners : List Owner, owners.flatMap (fun o => ([] : List Nat).map (fun i => (o, i))) = [] := by simp
  rw [State.buildTarget, hrun, applyOwners_eq, hnone]
  rfl

/-- Settles O34: a relay held in the starting target keeps its owner, and a given one goes to a masked owner. -/
theorem resolutionRespectsOwnersModesAndRetirement : Obligations.ResolutionRespectsOwnersModesAndRetirement := by
  intro s ctx p hc hwf hstart hresolve
  obtain ⟨-, target, hbuild, -, rfl⟩ := (resolve_eq_ok_iff s ctx p).mp hresolve
  have hwfStart : Table.wf none ctx.target := by
    rw [hstart]
    exact Canonicity.wf_startingTarget hwf _ _
  have hwfTarget := wf_buildTarget hbuild hwfStart
  have hstartOwner : ∀ r, ownerOf ctx.target r =
      if ctx.mode ≠ .add ∧ ∃ o, ownerOf ctx.base r = some o ∧ maskHas ctx.effective o = true then none
      else ownerOf ctx.base r := fun r => by rw [hstart, ownerOf_startingTarget hwf]
  have hopens : ∀ r, r ∈ (s.planFor ctx target).opens ↔ ownerOf ctx.base r ≠ none ∧ ownerOf target r = none :=
    Delta.mem_openSet_iff target hwf
  have hcloses : ∀ r o, (r, o) ∈ (s.planFor ctx target).closes ↔ ownerOf ctx.base r = none ∧ ownerOf target r = some o :=
    Delta.mem_closeSet_iff ctx.base hwfTarget
  have hreassigned : ∀ r o, (r, o) ∈ (s.planFor ctx target).reassigned ↔
      ownerOf target r = some o ∧ ∃ x, ownerOf ctx.base r = some x ∧ o ≠ x :=
    Delta.mem_reassignedSet_iff ctx.base hwfTarget
  have hkept : ∀ r o, ownerOf ctx.target r = some o → r ∉ (s.planFor ctx target).opens := by
    intro r o ho hr
    have hnone := ((hopens r).mp hr).2
    rw [buildTarget_keeps_owner hc hbuild ho] at hnone
    cases hnone
  have hsame : ∀ r o, ownerOf ctx.base r = some o → ownerOf ctx.target r = some o →
      r ∉ (s.planFor ctx target).opens ∧ r ∉ (s.planFor ctx target).reassigned.map Prod.fst := by
    intro r o hbase ho
    refine ⟨hkept r o ho, fun hr => ?_⟩
    obtain ⟨⟨_, x⟩, hmem, rfl⟩ := List.mem_map.mp hr
    obtain ⟨hx, y, hy, hne⟩ := (hreassigned _ x).mp hmem
    rw [buildTarget_keeps_owner hc hbuild ho] at hx
    rw [hbase] at hy
    cases hx
    cases hy
    exact hne rfl
  refine ⟨fun r o hbase hmask => hsame r o hbase ?_, fun x hx => ?_, fun hadd => ?_, fun hclear hset => ?_⟩
  · rw [hstartOwner, if_neg, hbase]
    rintro ⟨-, x, hx, hmasked⟩
    rw [hbase] at hx
    cases hx
    simp [hmask] at hmasked
  · obtain ⟨r, o⟩ := x
    have hnew : ownerOf target r = some o ∧ ownerOf ctx.base r ≠ some o := by
      rcases List.mem_append.mp hx with hclose | hreassign
      · obtain ⟨hbase, ho⟩ := (hcloses r o).mp hclose
        exact ⟨ho, by simp [hbase]⟩
      · obtain ⟨ho, y, hbase, hne⟩ := (hreassigned r o).mp hreassign
        exact ⟨ho, by simpa [hbase] using hne.symm⟩
    rcases owner_of_buildTarget hbuild hnew.1 with hold | ⟨hmask, hbar⟩
    · rw [hstartOwner] at hold
      split_ifs at hold
      exact absurd hold hnew.2
    · exact ⟨hmask, fun hretired => hnew.2 (hbar hretired)⟩
  · have hnone : ∀ r o, ownerOf ctx.base r = some o →
        r ∉ (s.planFor ctx target).opens ∧ r ∉ (s.planFor ctx target).reassigned.map Prod.fst :=
      fun r o hbase => hsame r o hbase (by simp [hstartOwner, hadd, hbase])
    constructor
    · refine List.eq_nil_iff_forall_not_mem.mpr fun r hr => ?_
      obtain ⟨o, ho⟩ := Option.ne_none_iff_exists'.mp ((hopens r).mp hr).1
      exact (hnone r o ho).1 hr
    · refine List.eq_nil_iff_forall_not_mem.mpr fun x hx => ?_
      obtain ⟨-, y, hy, -⟩ := (hreassigned x.1 x.2).mp hx
      exact (hnone x.1 y hy).2 (List.mem_map_of_mem hx)
  · rw [buildTarget_of_no_set hset] at hbuild
    cases hbuild
    have hsub : ∀ r o, ownerOf ctx.target r = some o → ownerOf ctx.base r = some o := by
      intro r o ho
      rw [hstartOwner] at ho
      split_ifs at ho
      exact ho
    refine ⟨List.eq_nil_iff_forall_not_mem.mpr fun x hx => ?_, List.eq_nil_iff_forall_not_mem.mpr fun x hx => ?_,
      fun r => ?_⟩
    · obtain ⟨hbase, ho⟩ := (hcloses x.1 x.2).mp hx
      simp [hsub _ _ ho] at hbase
    · obtain ⟨ho, y, hy, hne⟩ := (hreassigned x.1 x.2).mp hx
      rw [hsub _ _ ho] at hy
      cases hy
      exact hne rfl
    · rw [hopens, hstartOwner]
      simp only [hclear, ne_eq, reduceCtorEq, not_false_eq_true, true_and, ite_eq_left_iff, not_exists, not_and]
      constructor
      · rintro ⟨hheld, hall⟩
        by_contra hno
        exact hheld (hall fun o ho hmask => hno ⟨o, ho, hmask⟩)
      · rintro ⟨o, ho, hmask⟩
        exact ⟨by simp [ho], fun hall => absurd hmask (hall o ho)⟩

end Sys2Proof.Targets
end

section
/-! The net check: labels are net identities, and a failing net is reported by its lowest nodes (R48 to R50). -/

namespace Sys2Proof.NetCheck

open Sys2Proof.Machine Sys2Proof.Laws

/-! ### The first members of rising lists -/

/-- A rising list has two first members, or at most one. -/
theorem two_or_one {l : List Nat} (h : Ascending l) :
    (∃ x y tl, l = x :: y :: tl ∧ x < y ∧ ∀ z ∈ l, z = x ∨ y ≤ z) ∨
      ((∀ x y tl, l ≠ x :: y :: tl) ∧ ∀ x ∈ l, ∀ y ∈ l, x = y) := by
  match l, h with
  | [], _ => exact .inr ⟨nofun, by simp⟩
  | [x], _ => exact .inr ⟨nofun, by simp⟩
  | x :: y :: tl, h =>
    obtain ⟨hx, hyl⟩ := List.pairwise_cons.mp h
    obtain ⟨hy, -⟩ := List.pairwise_cons.mp hyl
    refine .inl ⟨x, y, tl, rfl, hx y (by simp), fun z hz => ?_⟩
    rcases List.mem_cons.mp hz with rfl | hz
    · exact .inl rfl
    · rcases List.mem_cons.mp hz with rfl | hz
      · exact .inr (le_refl _)
      · exact .inr (Nat.le_of_lt (hy z hz))

/-- What a search over a rising list finds is the lowest member that meets the test. -/
theorem find?_eq_some_iff_of_ascending {l : List Nat} (h : Ascending l) (p : Nat → Bool) (x : Nat) :
    l.find? p = some x ↔ (x ∈ l ∧ p x = true) ∧ ∀ y ∈ l, p y = true → x ≤ y := by
  induction l with
  | nil => simp
  | cons a l ih =>
    obtain ⟨ha, hl⟩ := List.pairwise_cons.mp h
    by_cases hp : p a = true
    · rw [List.find?_cons_of_pos hp, Option.some.injEq]
      constructor
      · rintro rfl
        refine ⟨⟨by simp, hp⟩, fun y hy _ => ?_⟩
        rcases List.mem_cons.mp hy with rfl | hy
        · exact le_refl _
        · exact Nat.le_of_lt (ha y hy)
      · rintro ⟨⟨hx, -⟩, hmin⟩
        have hle := hmin a (by simp) hp
        rcases List.mem_cons.mp hx with rfl | hx
        · rfl
        · exact absurd (ha x hx) (by omega)
    · rw [List.find?_cons_of_neg hp, ih hl]
      simp only [List.mem_cons]
      grind

/-- The first two values that a partial function takes along a rising list, or at most one place where it has a value. -/
theorem filterMap_two_or_one {f : Nat → Option Nat} {l : List Nat} (h : Ascending l) :
    (∃ x y tl, l.filterMap f = x :: y :: tl ∧ ∃ a ∈ l, ∃ b ∈ l, a < b ∧ f a = some x ∧ f b = some y ∧
        ∀ d ∈ l, f d ≠ none → d = a ∨ d = b ∨ b < d) ∨
      ((∀ x y tl, l.filterMap f ≠ x :: y :: tl) ∧ ∀ a ∈ l, ∀ b ∈ l, f a ≠ none → f b ≠ none → a = b) := by
  have hplaces : Ascending (l.filter fun a => (f a).isSome) := h.filter _
  have hvalues : l.filterMap f = (l.filter fun a => (f a).isSome).filterMap f := by
    rw [List.filterMap_filter]
    congr 1
    funext a
    cases f a <;> rfl
  have hmem : ∀ a, a ∈ l.filter (fun a => (f a).isSome) ↔ a ∈ l ∧ f a ≠ none := by
    simp [Option.isSome_iff_ne_none]
  rw [hvalues]
  rcases two_or_one hplaces with ⟨a, b, tl, hl, hab, hmin⟩ | ⟨hno, hone⟩
  · obtain ⟨ha, hfa⟩ := (hmem a).mp (by rw [hl]; simp)
    obtain ⟨hb, hfb⟩ := (hmem b).mp (by rw [hl]; simp)
    obtain ⟨x, hx⟩ := Option.ne_none_iff_exists'.mp hfa
    obtain ⟨y, hy⟩ := Option.ne_none_iff_exists'.mp hfb
    refine .inl ⟨x, y, tl.filterMap f, by simp [hl, hx, hy], a, ha, b, hb, hab, hx, hy, fun d hd hfd => ?_⟩
    rcases hmin d ((hmem d).mpr ⟨hd, hfd⟩) with hda | hbd
    · exact .inl hda
    · exact .inr (by omega)
  · refine .inr ⟨fun x y tl heq => ?_, fun a ha b hb hfa hfb =>
      hone a ((hmem a).mpr ⟨ha, hfa⟩) b ((hmem b).mpr ⟨hb, hfb⟩)⟩
    generalize l.filter (fun a => (f a).isSome) = places at *
    match places with
    | [] => simp at heq
    | [a] => cases hfa : f a <;> simp [hfa] at heq
    | a :: b :: tl' => exact hno a b tl' rfl

/-! ### Labels -/

theorem labelOf_joinNodes_le {labels : List Nat} (h : ∀ n, labelOf labels n ≤ n) (x y n : Nat) :
    labelOf (joinNodes labels x y) n ≤ n := by
  by_cases hn : n < labels.length
  · have hle := h n
    rw [Nets.labelOf_joinNodes _ _ _ _ hn]
    split_ifs <;> omega
  · exact le_of_eq (Nets.labelOf_of_length_le (by simpa using hn))

@[simp] theorem length_netLabels (s : State) (h : Holdings) : (s.netLabels h).length = 112 := by
  rw [Nets.netLabels_eq_foldl]
  exact List.foldlRecOn h (Nets.joinEntry s) (motive := fun labels => labels.length = 112) (List.length_range ..)
    fun labels hlength e _ => (Nets.length_joinEntry s labels e).trans hlength

theorem labelOf_netLabels_le (s : State) (h : Holdings) (n : Nat) : labelOf (s.netLabels h) n ≤ n := by
  rw [Nets.netLabels_eq_foldl]
  refine List.foldlRecOn h (Nets.joinEntry s) (motive := fun labels => ∀ n, labelOf labels n ≤ n) (by simp) ?_ n
  intro labels hle e _
  unfold Nets.joinEntry
  split
  · exact labelOf_joinNodes_le hle _ _
  · exact hle

section

variable {s : State} {h : Holdings} (hwf : Table.wf none h) (hvalid : s.NodesValid h)
include hwf hvalid

/-- A node is its own label exactly when it is the identity of its net. -/
theorem labelOf_eq_self_iff (n : Nat) : labelOf (s.netLabels h) n = n ↔ s.IsIdentity h n := by
  constructor
  · intro hn m hm
    rw [← hn, (Nets.labelOf_netLabels_eq_iff s hwf hvalid n m).mpr hm]
    exact labelOf_netLabels_le s h m
  · intro hn
    exact le_antisymm (labelOf_netLabels_le s h n) (hn _ (Nets.joined_labelOf_netLabels s hwf n))

theorem mem_netIdentities (n : Nat) : n ∈ netIdentities (s.netLabels h) ↔ n < 112 ∧ s.IsIdentity h n := by
  simp [netIdentities, labelOf_eq_self_iff hwf hvalid]

/-- The nodes of the net of an identity are those joined to it. -/
theorem mem_netNodes {n : Nat} (hn : n < 112) (hid : s.IsIdentity h n) (m : Nat) :
    m ∈ netNodes (s.netLabels h) n ↔ s.Joined h n m := by
  have hself := (labelOf_eq_self_iff hwf hvalid n).mpr hid
  rw [← Nets.labelOf_netLabels_eq_iff s hwf hvalid, hself]
  simp only [netNodes, List.mem_filter, List.mem_range, decide_eq_true_eq, @eq_comm _ n, and_iff_right_iff_imp]
  intro hm
  by_contra hge
  rw [Nets.labelOf_of_length_le] at hm
  · omega
  · rw [length_netLabels]
    omega

omit hwf hvalid in
theorem ascending_netNodes (labels : List Nat) (n : Nat) : Ascending (netNodes labels n) :=
  List.pairwise_lt_range.filter _

theorem mem_forceNodes {n : Nat} (hn : n < 112) (hid : s.IsIdentity h n) (m : Nat) :
    m ∈ s.forceNodes (netNodes (s.netLabels h) n) ↔ s.Joined h n m ∧ s.isForce m = true := by
  rw [State.forceNodes, List.mem_filter, mem_netNodes hwf hvalid hn hid]

/-- The lowest pin line of a site that lies in a net. -/
theorem lowestPin_eq_some_iff {n a : Nat} (hn : n < 112) (hid : s.IsIdentity h n) (ha : a < 8) (p : Nat) :
    s.lowestPin (netNodes (s.netLabels h) n) a = some p ↔ s.SiteIn h n a p ∧ ∀ q, s.SiteIn h n a q → p ≤ q := by
  rw [State.lowestPin, find?_eq_some_iff_of_ascending (ascending_netNodes _ n)]
  simp only [mem_netNodes hwf hvalid hn hid, Bool.and_eq_true, decide_eq_true_eq, State.SiteIn, ha, true_and, and_imp]

theorem lowestPin_ne_none {n a p : Nat} (hn : n < 112) (hid : s.IsIdentity h n) (hp : s.SiteIn h n a p) :
    s.lowestPin (netNodes (s.netLabels h) n) a ≠ none := by
  intro hnone
  obtain ⟨hjoined, hp64, -, howns⟩ := hp
  exact absurd (by simp [hp64, howns])
    (List.find?_eq_none.mp hnone p ((mem_netNodes hwf hvalid hn hid p).mpr hjoined))

/-- The net of an identity passes, or is reported with its two lowest FORCE nodes or its two lowest sites. -/
theorem netConflict_cases {n : Nat} (hn : n < 112) (hid : s.IsIdentity h n) :
    (s.netConflict (s.netLabels h) n = none ∧ s.NoShort h n ∧ s.NoCross h n) ∨
    (∃ x y, s.netConflict (s.netLabels h) n =
        some { Conflict.bare .short with node1 := some x, node2 := some y, net := some n } ∧ x < y ∧
      (∀ z ∈ [x, y], s.Joined h n z ∧ s.isForce z = true) ∧
      ∀ z, s.Joined h n z → s.isForce z = true → z = x ∨ y ≤ z) ∨
    (∃ x y, s.netConflict (s.netLabels h) n =
        some { Conflict.bare .crossSite with node1 := some x, node2 := some y, net := some n } ∧ s.NoShort h n ∧
      ∃ a b, a < b ∧ s.SiteIn h n a x ∧ s.SiteIn h n b y ∧
        ∀ d z, s.SiteIn h n d z → (d = a ∧ x ≤ z) ∨ (d = b ∧ y ≤ z) ∨ b < d) := by
  have hforce := mem_forceNodes hwf hvalid hn hid
  rcases two_or_one ((ascending_netNodes (s.netLabels h) n).filter (fun n => s.isForce n)) with
    ⟨x, y, tl, hl, hxy, hmin⟩ | ⟨hno, hone⟩
  · have hl : s.forceNodes (netNodes (s.netLabels h) n) = x :: y :: tl := hl
    refine .inr (.inl ⟨x, y, by simp only [State.netConflict, hl], hxy, fun z hz => (hforce z).mp ?_,
      fun z hz hfz => hmin z ((hforce z).mpr ⟨hz, hfz⟩)⟩)
    rw [hl]
    simp only [List.mem_cons, List.not_mem_nil, or_false] at hz ⊢
    tauto
  · have hshort : s.NoShort h n := fun x y hx hy hfx hfy =>
      hone x ((hforce x).mpr ⟨hx, hfx⟩) y ((hforce y).mpr ⟨hy, hfy⟩)
    have hno : ∀ x y tl, s.forceNodes (netNodes (s.netLabels h) n) ≠ x :: y :: tl := hno
    have hconflict : s.netConflict (s.netLabels h) n =
        match s.sitePins (netNodes (s.netLabels h) n) with
        | x :: y :: _ => some { Conflict.bare .crossSite with node1 := some x, node2 := some y, net := some n }
        | _ => none := by
      unfold State.netConflict
      split
      next x y tl hl => exact absurd hl (hno x y tl)
      next => rfl
    have hlt : ∀ {a p}, s.SiteIn h n a p → a ∈ List.range 8 := fun hp => List.mem_range.mpr hp.2.2.1
    rcases filterMap_two_or_one (f := fun site => s.lowestPin (netNodes (s.netLabels h) n) site)
      (List.pairwise_lt_range (n := 8)) with ⟨x, y, tl, hl, a, ha, b, hb, hab, hx, hy, hmin⟩ | ⟨hno, hone⟩
    · have hpins : s.sitePins (netNodes (s.netLabels h) n) = x :: y :: tl := hl
      obtain ⟨hax, hlowa⟩ := (lowestPin_eq_some_iff hwf hvalid hn hid (List.mem_range.mp ha) x).mp hx
      obtain ⟨hby, hlowb⟩ := (lowestPin_eq_some_iff hwf hvalid hn hid (List.mem_range.mp hb) y).mp hy
      refine .inr (.inr ⟨x, y, by rw [hconflict, hpins], hshort, a, b, hab, hax, hby, fun d z hz => ?_⟩)
      rcases hmin d (hlt hz) (lowestPin_ne_none hwf hvalid hn hid hz) with rfl | rfl | hbd
      · exact .inl ⟨rfl, hlowa z hz⟩
      · exact .inr (.inl ⟨rfl, hlowb z hz⟩)
      · exact .inr (.inr hbd)
    · have hno : ∀ x y tl, s.sitePins (netNodes (s.netLabels h) n) ≠ x :: y :: tl := hno
      refine .inl ⟨?_, hshort, fun a b p q hp hq => hone a (hlt hp) b (hlt hq)
        (lowestPin_ne_none hwf hvalid hn hid hp) (lowestPin_ne_none hwf hvalid hn hid hq)⟩
      rw [hconflict]
      split
      next x y tl hl => exact absurd hl (hno x y tl)
      next => rfl

theorem netConflict_eq_none_iff {n : Nat} (hn : n < 112) (hid : s.IsIdentity h n) :
    s.netConflict (s.netLabels h) n = none ↔ s.NoShort h n ∧ s.NoCross h n := by
  rcases netConflict_cases hwf hvalid hn hid with
    ⟨hnone, hsound⟩ | ⟨x, y, hsome, hxy, hjoined, -⟩ | ⟨x, y, hsome, -, a, b, hab, hx, hy, -⟩
  · exact iff_of_true hnone hsound
  · refine iff_of_false (by simp [hsome]) fun hsound => ?_
    obtain ⟨hjx, hfx⟩ := hjoined x (by simp)
    obtain ⟨hjy, hfy⟩ := hjoined y (by simp)
    exact absurd (hsound.1 x y hjx hjy hfx hfy) (by omega)
  · exact iff_of_false (by simp [hsome]) fun hsound => absurd (hsound.2 a b x y hx hy) (by omega)

/-- Every node below 112 lies in the net of an identity below 112. -/
theorem exists_identity {x : Nat} (hx : x < 112) : ∃ n, n < 112 ∧ s.IsIdentity h n ∧ s.Joined h n x := by
  have hjoined := Nets.joined_labelOf_netLabels s hwf x
  refine ⟨labelOf (s.netLabels h) x, lt_of_le_of_lt (labelOf_netLabels_le s h x) hx, ?_, hjoined.symm⟩
  rw [← labelOf_eq_self_iff hwf hvalid]
  exact ((Nets.labelOf_netLabels_eq_iff s hwf hvalid _ _).mpr hjoined).symm

/-- Nets are sound when the net of every identity is. -/
theorem netsSound_iff : s.NetsSound h ↔ ∀ n, n < 112 → s.IsIdentity h n → s.NoShort h n ∧ s.NoCross h n := by
  constructor
  · rintro ⟨hforce, hsites⟩ n - -
    refine ⟨fun x y hx hy => hforce x y (hx.symm.trans _ _ _ hy), ?_⟩
    rintro a b p q ⟨hp, hp64, ha, hap⟩ ⟨hq, hq64, hb, hbq⟩
    exact hsites p q a b (hp.symm.trans _ _ _ hq) hp64 hq64 ha hb hap hbq
  · refine fun hall => ⟨fun x y hxy hfx hfy => ?_, fun p q a b hpq hp hq ha hb hap hbq => ?_⟩
    · have hx : x < 112 := by
        simp only [State.isForce, Bool.and_eq_true, decide_eq_true_eq] at hfx
        omega
      obtain ⟨n, hn, hid, hjoined⟩ := exists_identity hwf hvalid hx
      exact (hall n hn hid).1 x y hjoined (hjoined.trans _ _ _ hxy) hfx hfy
    · obtain ⟨n, hn, hid, hjoined⟩ := exists_identity hwf hvalid (show p < 112 by omega)
      exact (hall n hn hid).2 a b p q ⟨hjoined, hp, ha, hap⟩ ⟨hjoined.trans _ _ _ hpq, hq, hb, hbq⟩

theorem netCheck_eq_none_iff : s.netCheck h = none ↔ s.NetsSound h := by
  rw [State.netCheck, List.findSome?_eq_none_iff, netsSound_iff hwf hvalid]
  simp only [mem_netIdentities hwf hvalid, and_imp]
  exact forall_congr' fun n => forall_congr' fun hn => forall_congr' fun hid =>
    netConflict_eq_none_iff hwf hvalid hn hid

end

/-- Settles O35: the first identity whose net fails is the lowest, as the identities are searched in rising order. -/
theorem netCheckPassesExactlySoundNets : Obligations.NetCheckPassesExactlySoundNets := by
  intro s h hwf hvalid
  refine ⟨by rw [State.netsPass, Option.isNone_iff_eq_none, netCheck_eq_none_iff hwf hvalid], fun c hc => ?_⟩
  obtain ⟨before, n, after, hl, hn, hbefore⟩ := List.findSome?_eq_some_iff.mp hc
  have hrising : Ascending (netIdentities (s.netLabels h)) := List.pairwise_lt_range.filter _
  obtain ⟨hn112, hid⟩ := (mem_netIdentities hwf hvalid n).mp (by rw [hl]; simp)
  have hlower : ∀ m, m < n → s.IsIdentity h m → s.NoShort h m ∧ s.NoCross h m := by
    intro m hmn hmid
    have hm : m ∈ before ++ n :: after := hl ▸ (mem_netIdentities hwf hvalid m).mpr ⟨by omega, hmid⟩
    rw [hl] at hrising
    obtain ⟨-, hafter, -⟩ := List.pairwise_append.mp hrising
    have hmem : m ∈ before := by
      rcases List.mem_append.mp hm with hm | hm
      · exact hm
      · rcases List.mem_cons.mp hm with rfl | hm
        · omega
        · exact absurd ((List.pairwise_cons.mp hafter).1 m hm) (by omega)
    exact (netConflict_eq_none_iff hwf hvalid (by omega) hmid).mp (hbefore m hmem)
  rcases netConflict_cases hwf hvalid hn112 hid with
    ⟨hnone, -⟩ | ⟨x, y, hsome, hxy, hforce⟩ | ⟨x, y, hsome, hshort, hcross⟩
  · simp [hnone] at hn
  · obtain rfl := Option.some.inj (hsome.symm.trans hn)
    exact ⟨n, x, y, rfl, hid, hlower, .inl ⟨rfl, hxy, hforce⟩⟩
  · obtain rfl := Option.some.inj (hsome.symm.trans hn)
    exact ⟨n, x, y, rfl, hid, hlower, .inr ⟨rfl, hshort, hcross⟩⟩

end Sys2Proof.NetCheck
end

section
/-! What a plan does to the board, and how long its waves take (R28, R48, R53, R54, R73, R74). -/

namespace Sys2Proof.Plans

open Sys2Proof.Machine Sys2Proof.Laws

/-! ### The holdings that a plan gives (R28) -/

theorem ownerOf_put (h : Holdings) (i j : Nat) (o : Option Owner) :
    ownerOf (h.put none i o) j = if j = i then o else ownerOf h j := table_get_put none h i j o

theorem assignOwners_append (h : Holdings) (l k : List (Nat × Owner)) :
    assignOwners (assignOwners h l) k = assignOwners h (l ++ k) := by
  rw [assignOwners, assignOwners, assignOwners, List.foldl_append]

theorem ownerOf_assignOwners {l : List (Nat × Owner)} (hl : (l.map Prod.fst).Nodup) (h : Holdings) (r : Nat) :
    ownerOf (assignOwners h l) r =
      match l.find? (fun x => decide (x.1 = r)) with
      | some x => some x.2
      | none => ownerOf h r := by
  unfold assignOwners
  induction l generalizing h with
  | nil => rfl
  | cons e l ih =>
    obtain ⟨he, hl⟩ := List.nodup_cons.mp hl
    rw [List.foldl_cons, ih hl, List.find?_cons, ownerOf_put]
    by_cases her : e.1 = r
    · have hnone : l.find? (fun x => decide (x.1 = r)) = none := by
        refine List.find?_eq_none.mpr fun x hx hxr => he ?_
        rw [her, ← of_decide_eq_true hxr]
        exact List.mem_map_of_mem hx
      simp [hnone, her]
    · simp only [her, decide_false, Ne.symm her, ↓reduceIte]

/-- The holdings a plan gives, where no relay is named twice. -/
theorem ownerOf_plannedHoldings {p : Plan} (hp : ((p.closes ++ p.reassigned).map Prod.fst).Nodup)
    (hopens : ∀ r ∈ p.opens, r ∉ (p.closes ++ p.reassigned).map Prod.fst) (h : Holdings) (r : Nat) :
    ownerOf (plannedHoldings h p) r =
      if r ∈ p.opens then none
      else match (p.closes ++ p.reassigned).find? (fun x => decide (x.1 = r)) with
        | some x => some x.2
        | none => ownerOf h r := by
  rw [plannedHoldings, assignOwners_append, ownerOf_assignOwners hp, dropOwners_get]
  by_cases hr : r ∈ p.opens
  · have hnone : (p.closes ++ p.reassigned).find? (fun x => decide (x.1 = r)) = none := by
      refine List.find?_eq_none.mpr fun x hx hxr => hopens r hr ?_
      rw [← of_decide_eq_true hxr]
      exact List.mem_map_of_mem hx
    simp only [hnone, hr, ↓reduceIte]
  · simp only [hr, ↓reduceIte]

section

variable {s : State} {ctx : Resolution} {target : Holdings} (hbase : Table.wf none ctx.base)
  (htarget : Table.wf none target)
include hbase htarget

/-- A plan names no relay twice: O, C and the reassigned relays lie apart. -/
theorem planFor_nodup : (((s.planFor ctx target).closes ++ (s.planFor ctx target).reassigned).map Prod.fst).Nodup ∧
    ∀ r ∈ (s.planFor ctx target).opens,
      r ∉ ((s.planFor ctx target).closes ++ (s.planFor ctx target).reassigned).map Prod.fst := by
  have hclose : ∀ r, r ∈ (s.planFor ctx target).closes.map Prod.fst → ownerOf ctx.base r = none ∧ ownerOf target r ≠ none :=
    fun r => (Delta.mem_closeSet_relays_iff ctx.base htarget r).mp
  have hreassign : ∀ r, r ∈ (s.planFor ctx target).reassigned.map Prod.fst →
      ownerOf ctx.base r ≠ none ∧ ownerOf target r ≠ none := by
    intro r hr
    obtain ⟨⟨_, o⟩, hmem, rfl⟩ := List.mem_map.mp hr
    obtain ⟨ho, x, hx, -⟩ := (Delta.mem_reassignedSet_iff ctx.base htarget _ o).mp hmem
    exact ⟨by simp [hx], by simp [ho]⟩
  rw [List.map_append]
  constructor
  · obtain ⟨-, -, -, -, hcloses, hreassigned, -⟩ := Delta.deltaSortsEveryRelay ctx.base target hbase htarget
    exact hcloses.nodup.append hreassigned.nodup fun r hc hr => (hreassign r hr).1 (hclose r hc).1
  · intro r hr hmem
    have hnone := ((Delta.mem_openSet_iff target hbase r).mp hr).2
    rcases List.mem_append.mp hmem with hc | hr
    · exact (hclose r hc).2 hnone
    · exact (hreassign r hr).2 hnone

/-- Starting the plan of a target gives the target. -/
theorem plannedHoldings_planFor : plannedHoldings ctx.base (s.planFor ctx target) = target := by
  refine table_ext none _ _ (Canonicity.wf_plannedHoldings hbase _) htarget fun r => ?_
  obtain ⟨honce, hapart⟩ := planFor_nodup (s := s) hbase htarget
  have hopens := Delta.mem_openSet_iff target hbase r
  have hcloses := fun o => Delta.mem_closeSet_iff ctx.base htarget r o
  have hreassigned := fun o => Delta.mem_reassignedSet_iff ctx.base htarget r o
  change ownerOf (plannedHoldings ctx.base (s.planFor ctx target)) r = ownerOf target r
  rw [ownerOf_plannedHoldings honce hapart]
  split_ifs with hr
  · exact (hopens.mp hr).2.symm
  · split
    next x hfind =>
      obtain rfl : x.1 = r := by simpa using List.find?_some hfind
      rcases List.mem_append.mp (List.mem_of_find?_eq_some hfind) with hc | hr
      · exact ((hcloses x.2).mp hc).2.symm
      · exact ((hreassigned x.2).mp hr).1.symm
    next hnone =>
      have hnot : ∀ o, (r, o) ∉ closeSet ctx.base target ∧ (r, o) ∉ reassignedSet ctx.base target := by
        intro o
        have hmem := fun hmem => List.find?_eq_none.mp hnone (r, o) hmem (by simp)
        exact ⟨fun hc => hmem (List.mem_append_left _ hc), fun hr => hmem (List.mem_append_right _ hr)⟩
      cases ho : ownerOf target r with
      | none =>
        by_contra hne
        exact hr (hopens.mpr ⟨hne, ho⟩)
      | some o =>
        cases hb : ownerOf ctx.base r with
        | none => exact absurd ((hcloses o).mpr ⟨hb, ho⟩) (hnot o).1
        | some x =>
          by_contra hne
          exact (hnot o).2 ((hreassigned o).mpr ⟨ho, x, hb, fun heq => hne (by rw [heq])⟩)

end

/-- Settles O36: the plan's holdings are the target that the net check has passed. -/
theorem plansCarryTheBoardToSoundNets : Obligations.PlansCarryTheBoardToSoundNets := by
  intro s ctx p hc htables hwf hstart hpresent hresolve
  obtain ⟨-, target, hbuild, hnets, rfl⟩ := (Targets.resolve_eq_ok_iff s ctx p).mp hresolve
  have hwfTarget := Targets.wf_buildTarget hbuild (hstart ▸ Canonicity.wf_startingTarget hwf _ _)
  have hvalid : s.NodesValid target := by
    intro r hr
    have hrelay : (s.relay r).present = true := by
      rcases Targets.listed_of_buildTarget hbuild hr with hheld | ⟨e, hmem, he⟩
      · rw [hstart, Targets.ownerOf_startingTarget hwf] at hheld
        split_ifs at hheld
        · exact absurd rfl hheld
        · exact hpresent r hheld
      · rw [Resolving.relay_of_mem hc.relayMap hmem]
        exact he
    obtain ⟨ha, hb, -⟩ := htables.relays r hrelay
    exact ⟨ha, hb⟩
  obtain ⟨honce, hapart⟩ := planFor_nodup (s := s) hwf hwfTarget
  refine ⟨?_, ownerOf_plannedHoldings honce hapart _⟩
  rw [plannedHoldings_planFor hwf hwfTarget]
  exact (NetCheck.netCheck_eq_none_iff hwfTarget hvalid).mp hnets

/-! ### Waves (R53) -/

/-- With runs enough, the cut of a list is its front and the cut of the rest. -/
theorem cutWaves_cons {w n : Nat} {rs : List Nat} (hrs : rs ≠ []) :
    cutWaves w (n + 1) rs = rs.take w :: cutWaves w n (rs.drop w) := by
  cases rs with
  | nil => exact absurd rfl hrs
  | cons r rs => rfl

theorem cutWaves_nil (w n : Nat) : cutWaves w n [] = [] := by cases n <;> rfl

/-- No relay needs no wave. -/
theorem no_waves {w : Nat} (hw : 1 ≤ w) : (0 + (w - 1)) / w = 0 := Nat.div_eq_of_lt (by omega)

/-- Cutting needs no more runs than there are members. -/
theorem cutWaves_spec {w : Nat} (hw : 1 ≤ w) : ∀ (n : Nat) (rs : List Nat), rs.length ≤ n →
    (cutWaves w n rs).flatten = rs ∧ (cutWaves w n rs).length = (rs.length + (w - 1)) / w ∧
      ∀ i (h : i < (cutWaves w n rs).length),
        (cutWaves w n rs)[i] = (rs.drop (i * w)).take w ∧ (cutWaves w n rs)[i] ≠ [] := by
  intro n
  induction n with
  | zero =>
    intro rs hrs
    obtain rfl : rs = [] := List.length_eq_zero_iff.mp (by omega)
    exact ⟨rfl, (no_waves hw).symm, nofun⟩
  | succ n ih =>
    intro rs hrs
    by_cases hnil : rs = []
    · subst hnil
      rw [cutWaves_nil]
      exact ⟨rfl, (no_waves hw).symm, nofun⟩
    · have hlen := List.length_pos_iff.mpr hnil
      obtain ⟨hflat, hlength, hget⟩ := ih (rs.drop w) (by rw [List.length_drop]; omega)
      simp only [cutWaves_cons hnil]
      refine ⟨by rw [List.flatten_cons, hflat, List.take_append_drop], ?_, ?_⟩
      · rw [List.length_cons, hlength, List.length_drop]
        rcases Nat.lt_or_ge rs.length w with hlt | hge
        · have hone : (rs.length + (w - 1)) / w = 1 := Nat.div_eq_of_lt_le (by omega) (by omega)
          rw [Nat.sub_eq_zero_of_le (by omega), no_waves hw, hone]
        · rw [← Nat.add_div_right _ (by omega)]
          congr 1
          omega
      · intro i hi
        cases i with
        | zero =>
          refine ⟨by simp, ?_⟩
          simp only [List.getElem_cons_zero, ne_eq, List.take_eq_nil_iff, hnil, or_false]
          omega
        | succ i =>
          obtain ⟨heq, hne⟩ := hget i (by simpa using hi)
          refine ⟨?_, hne⟩
          rw [List.getElem_cons_succ, heq, List.drop_drop]
          congr 2
          ring

/-! ### Wave times and the planned duration (R54, R73, R74) -/

section

variable (s : State) (close : Bool)

theorem waveTime_eq (rs : List Nat) : s.waveTime close rs = (rs.map (s.relayTime close)).foldl max 0 := by
  rw [State.waveTime, List.foldl_map]

/-- The largest of some times is not below any of them, is one of them, and is under every bound of them all. -/
theorem foldl_max_spec (l : List Nat) (m : Nat) :
    (m ≤ l.foldl max m ∧ ∀ x ∈ l, x ≤ l.foldl max m) ∧ (l.foldl max m = m ∨ l.foldl max m ∈ l) ∧
      ∀ b, m ≤ b → (∀ x ∈ l, x ≤ b) → l.foldl max m ≤ b := by
  induction l generalizing m with
  | nil => simp
  | cons a l ih =>
    obtain ⟨⟨hm, hl⟩, hmem, hbound⟩ := ih (max m a)
    rw [List.foldl_cons]
    refine ⟨⟨by omega, fun x hx => ?_⟩, ?_, fun b hb hall => hbound b ?_ fun x hx => hall x (by simp [hx])⟩
    · rcases List.mem_cons.mp hx with rfl | hx
      · omega
      · exact hl x hx
    · rcases hmem with heq | hmem
      · rcases max_choice m a with h | h
        · exact .inl (heq.trans h)
        · exact .inr (by rw [heq, h]; simp)
      · exact .inr (by simp [hmem])
    · have := hall a (by simp)
      omega

theorem relayTime_le_waveTime {rs : List Nat} {r : Nat} (hr : r ∈ rs) : s.relayTime close r ≤ s.waveTime close rs := by
  rw [waveTime_eq]
  exact (foldl_max_spec _ 0).1.2 _ (List.mem_map_of_mem hr)

theorem exists_relayTime_eq {rs : List Nat} (hrs : rs ≠ []) : ∃ r ∈ rs, s.relayTime close r = s.waveTime close rs := by
  rw [waveTime_eq]
  rcases (foldl_max_spec (rs.map (s.relayTime close)) 0).2.1 with hzero | hmem
  · obtain ⟨r, hr⟩ := List.exists_mem_of_ne_nil rs hrs
    have hle := (foldl_max_spec (rs.map (s.relayTime close)) 0).1.2 _ (List.mem_map_of_mem hr)
    exact ⟨r, hr, by omega⟩
  · obtain ⟨r, hr, heq⟩ := List.mem_map.mp hmem
    exact ⟨r, hr, heq⟩

end

/-- The longest time of any relay, whatever its class and wear (R71, R72). -/
def longestTime : Nat := 393210

theorem relayTime_le {s : State} (h : s.InRange) (close : Bool) (r : Nat) : s.relayTime close r ≤ longestTime := by
  have hlife := h.ratedLife (s.relay r).cls.toNat
  have hderate := h.derate (s.relay r).cls.toNat
  cases close with
  | true => exact SwitchingTime.switchTime_close_le hlife hderate _
  | false => exact (SwitchingTime.switchTime_open_le hlife hderate _).trans (by decide)

theorem waveTime_le {s : State} (h : s.InRange) (close : Bool) (rs : List Nat) : s.waveTime close rs ≤ longestTime := by
  rw [waveTime_eq]
  refine (foldl_max_spec _ 0).2.2 _ (Nat.zero_le _) fun x hx => ?_
  obtain ⟨r, -, rfl⟩ := List.mem_map.mp hx
  exact relayTime_le h close r

/-- A set's waves are at most as many as its relays, and none takes longer than any relay can. -/
theorem wavesTime_le {s : State} (h : s.InRange) (close : Bool) {w : Nat} (hw : 1 ≤ w) (rs : List Nat) :
    s.wavesTime close w rs ≤ rs.length * longestTime := by
  obtain ⟨-, hlength, -⟩ := cutWaves_spec hw rs.length rs (le_refl _)
  have hcount : (wavesOf w rs).length ≤ rs.length := by
    rw [wavesOf, hlength]
    rcases Nat.eq_zero_or_pos rs.length with hzero | hpos
    · rw [hzero, no_waves hw]
    · rw [Nat.div_le_iff_le_mul_add_pred (by omega)]
      nlinarith
  calc s.wavesTime close w rs
      ≤ ((wavesOf w rs).map (fun wave => s.waveTime close wave)).length • longestTime :=
        List.sum_le_card_nsmul _ _ fun x hx => by
          obtain ⟨wave, -, rfl⟩ := List.mem_map.mp hx
          exact waveTime_le h close wave
    _ ≤ rs.length * longestTime := by
        rw [List.length_map, smul_eq_mul]
        exact Nat.mul_le_mul_right _ hcount

/-- Settles O38: a plan opens and closes at most 1024 relays, in no more waves, each within the longest time. -/
theorem plansCutWavesAndSumTheirTimes : Obligations.PlansCutWavesAndSumTheirTimes := by
  refine ⟨fun w rs hw => cutWaves_spec hw rs.length rs (le_refl _), ?_⟩
  rintro s ctx base target rfl hbase htarget hrange hw hin p
  refine ⟨rfl, ?_, fun close rs => ⟨fun r hr => relayTime_le_waveTime s close hr, exists_relayTime_eq s close⟩⟩
  have hopen := wavesTime_le hin false hw p.opens
  have hclose := wavesTime_le hin true hw (p.closes.map Prod.fst)
  have hcount : p.opens.length + p.closes.length ≤ 1024 :=
    Delta.openSet_closeSet_length_le hbase htarget 1024 hrange
  calc p.duration
      = s.wavesTime false ctx.waveLimit p.opens + s.wavesTime true ctx.waveLimit (p.closes.map Prod.fst) := rfl
    _ ≤ p.opens.length * longestTime + p.closes.length * longestTime := by
        rw [List.length_map] at hclose
        exact Nat.add_le_add hopen hclose
    _ ≤ 1024 * longestTime := by
        rw [← Nat.add_mul]
        exact Nat.mul_le_mul_right _ hcount
    _ = 402647040 := rfl

end Sys2Proof.Plans
end

section
/-! Every step keeps every stored parameter, wave limit and index in its range (R19, R67, R99, R165, R179, R188). -/

namespace Sys2Proof.Ranges

open Sys2Proof.Machine Sys2Proof.Laws Sys2Proof.Effects Sys2Proof.Kept

/-! ### Tables within their spaces -/

section

variable {α : Type} {n : Nat} {t : Table α}

theorem within_nil : Table.Within n ([] : Table α) := nofun

theorem within_filter (h : Table.Within n t) (p : Nat × α → Bool) : Table.Within n (t.filter p) :=
  fun e he => h e (List.mem_of_mem_filter he)

theorem within_put [DecidableEq α] (d : α) (h : Table.Within n t) {i : Nat} (hi : i < n) (v : α) :
    Table.Within n (Table.put d t i v) := by
  have hothers := within_filter h fun e => decide (e.1 ≠ i)
  unfold Table.put
  dsimp only
  split_ifs
  · exact hothers
  · intro e he
    rcases (table_mem_insertAt _ i v e).mp he with rfl | he
    · exact hi
    · exact hothers e he

theorem within_foldl_put {β : Type} [DecidableEq α] {d : α} (l : List β) (index : β → Nat) (value : β → α)
    (hindex : ∀ x ∈ l, index x < n) (h : Table.Within n t) :
    Table.Within n (l.foldl (fun t x => t.put d (index x) (value x)) t) :=
  Canonicity.foldl_put_keeps (P := Table.Within n) l index value (fun _ x hx ht => within_put d ht (hindex x hx) _) h

/-- The indices of the entries that a filter takes. -/
theorem within_relays (h : Table.Within n t) (p : Nat × α → Bool) : ∀ r ∈ (t.filter p).map Prod.fst, r < n := by
  intro r hr
  obtain ⟨e, he, rfl⟩ := List.mem_map.mp hr
  exact within_filter h p e he

end

theorem within_ownedWhere {n : Nat} {target : Holdings} (h : Table.Within n target) (p : Nat → Owner → Bool) :
    ∀ e ∈ ownedWhere target p, e.1 < n := by
  intro e he
  obtain ⟨x, hx, heq⟩ := List.mem_map.mp ((Delta.ownedWhere_relays_sublist target p).subset (List.mem_map_of_mem he))
  rw [← heq]
  exact h x hx

theorem within_plannedHoldings {h : Holdings} {p : Plan} (hh : Table.Within 1024 h) (hopens : ∀ r ∈ p.opens, r < 1024)
    (hassigned : ∀ e ∈ p.closes ++ p.reassigned, e.1 < 1024) : Table.Within 1024 (plannedHoldings h p) := by
  have hdropped : Table.Within 1024 (dropOwners h p.opens) := within_foldl_put _ id _ hopens hh
  rw [plannedHoldings, Plans.assignOwners_append]
  exact within_foldl_put _ _ _ hassigned hdropped

theorem within_startingTarget {h : Holdings} (hh : Table.Within 1024 h) (mode : StepMode) (mask : BitVec 9) :
    Table.Within 1024 (startingTarget mode h mask) := by
  cases mode with
  | replace | clear => exact within_filter hh _
  | add => exact hh

/-- The plan of a resolution in range names relays in range. -/
theorem within_plan {s : State} {ctx : Resolution} {p : Plan} (h : s.InRange) (hctx : s.resolver.context = some ctx)
    (hp : s.resolve ctx = .ok p) : IsWaveLimit p.waveLimit ∧ (∀ r ∈ p.opens, r < 1024) ∧
      ∀ e ∈ p.closes ++ p.reassigned, e.1 < 1024 := by
  obtain ⟨hlimit, hbase, hstart⟩ := h.context ctx hctx
  obtain ⟨-, target, hbuild, -, rfl⟩ := (Targets.resolve_eq_ok_iff s ctx p).mp hp
  have htarget : Table.Within 1024 target := by
    refine Targets.buildTarget_keeps (P := Table.Within 1024) (fun o t r hr ht => ?_) hbuild hstart
    obtain ⟨e, he, -⟩ := hr.listed
    exact within_put none ht (h.topology.1 _ he) _
  refine ⟨hlimit, within_relays hbase _, fun e he => ?_⟩
  rcases List.mem_append.mp he with hc | hr
  · exact within_ownedWhere htarget (fun r _ => (ownerOf ctx.base r).isNone) e hc
  · exact within_ownedWhere htarget (fun r o => (ownerOf ctx.base r).isSome && decide (ownerOf ctx.base r ≠ some o)) e hr

/-! ### The operations -/

theorem inRange_setWear {s : State} (h : s.InRange) {r : Nat} (hr : r < 1024) (w : WearRecord) : (s.setWear r w).InRange :=
  { h with relays := ⟨h.relays.1, h.relays.2.1, h.relays.2.2.1, within_put _ h.relays.2.2.2 hr w⟩ }

theorem inRange_handNotice {s : State} (h : s.InRange) {n : Notice} (hn : n.relay < 1024) : (s.handNotice n).InRange := by
  unfold State.handNotice
  split_ifs with hroom
  · have hlist : (s.wear.notices ++ [n]).length ≤ 16 ∧ ∀ x ∈ s.wear.notices ++ [n], x.relay < 1024 := by
      refine ⟨by rw [List.length_append]; exact hroom, fun x hx => ?_⟩
      rcases List.mem_append.mp hx with hx | hx
      · exact h.notices.2 x hx
      · rwa [List.mem_singleton.mp hx]
    exact { h with notices := hlist }
  · exact { h with }

theorem inRange_addWear {s : State} (h : s.InRange) {r : Nat} (hr : r < 1024) (weight : Nat) :
    (s.addWear r weight).InRange := by
  have hcounted := inRange_setWear h hr { s.wearOf r with count := addedWear (s.wearOf r).count weight }
  unfold State.addWear
  dsimp only
  split_ifs
  · exact inRange_handNotice (inRange_setWear (inRange_handNotice hcounted hr) hr _) hr
  · exact inRange_handNotice (inRange_setWear hcounted hr _) hr
  · exact inRange_handNotice hcounted hr
  · exact hcounted

theorem inRange_degrade {s : State} (h : s.InRange) {r : Nat} (hr : r < 1024) : (s.degrade r).InRange := by
  unfold State.degrade
  split
  · exact inRange_setWear h hr _
  · exact inRange_handNotice (inRange_setWear h hr _) hr
  · exact h

theorem inRange_confirm {s : State} (h : s.InRange) (close : Bool) {r : Nat} (hr : r < 1024) :
    (s.confirm close r).InRange := by
  refine inRange_addWear (s := { s with
      engine.actual := s.engine.actual.put .opened r (if close then .closed else .opened),
      engine.pendingOpen := s.engine.pendingOpen.filter (fun x => x ≠ r),
      engine.pendingClose := s.engine.pendingClose.filter (fun x => x ≠ r) }) ?_ hr _
  refine { h with relays := ⟨within_put _ h.relays.1 hr _, h.relays.2⟩, lists := fun x hx => h.lists x ?_ }
  rcases List.mem_append.mp hx with hx | hx
  · exact List.mem_append_left _ (List.mem_of_mem_filter hx)
  · exact List.mem_append_right _ (List.mem_of_mem_filter hx)

theorem inRange_confirmEach (close : Bool) {rs : List Nat} (hrs : ∀ r ∈ rs, r < 1024) {s : State} (h : s.InRange) :
    (s.confirmEach close rs).InRange :=
  List.foldlRecOn rs _ (motive := State.InRange) h fun _ hu r hr => inRange_confirm hu close (hrs r hr)

theorem inRange_confirmAll {s : State} (h : s.InRange) (close : Bool) {rs : List Nat} (hrs : ∀ r ∈ rs, r < 1024) :
    (s.confirmAll close rs).InRange := by
  obtain ⟨p, n, -, heq⟩ := confirmAll_apart s close rs
  rw [heq]
  refine { inRange_confirmEach close (fun r hr => hrs r ?_) h with }
  exact (confirmOrder_perm s close rs).subset hr

theorem relays_lt {s : State} (h : s.InRange) {w : Wave} (hw : s.coil.wave = some w) :
    ∀ r ∈ w.relays.map WaveRelay.relay, r < 1024 := by
  intro r hr
  obtain ⟨x, hx, rfl⟩ := List.mem_map.mp hr
  exact h.wave w hw x hx

theorem inRange_fault {s : State} (h : s.InRange) (k : FaultKind) (p : FaultPhase) (ch : Option (Fin 8))
    (rs : List Nat) : (s.fault k p ch rs).InRange := by
  unfold State.fault
  split
  · exact h
  · exact { h with }

theorem inRange_formWave {s : State} (h : s.InRange) (close : Bool) (n : Nat) : (s.formWave close n).InRange := by
  have hlist : ∀ r ∈ (if close then s.engine.pendingClose else s.engine.pendingOpen).take n, r < 1024 := by
    intro r hr
    have hr := List.mem_of_mem_take hr
    refine h.lists r ?_
    cases close with
    | true => exact List.mem_append_right _ hr
    | false => exact List.mem_append_left _ hr
  have hchains : ∀ c ∈ touchedChains ((if close then s.engine.pendingClose else s.engine.pendingOpen).take n), c < 8 :=
    fun c hc => ((mem_touchedChains _ c).mp hc).1
  refine { h with
    chains := ⟨within_foldl_put _ id _ hchains h.chains.1, within_foldl_put _ id _ hchains h.chains.2⟩
    wave := ?_ }
  rintro _ ⟨⟩ x hx
  obtain ⟨r, hr, rfl⟩ := List.mem_map.mp hx
  exact hlist r hr

theorem inRange_lockOut {s : State} (h : s.InRange) : s.lockOut.InRange := by
  have hlocked := lockOut_locksOutTo s
  have hcontext : s.lockOut.resolver.context = none := by
    cases hctx : s.resolver.context with
    | none => rw [hlocked.idleResolver hctx, hctx]
    | some ctx => rw [hlocked.cancels ctx hctx]
  rw [hlocked.rest]
  exact { h with
    relays := ⟨within_nil, within_nil, within_nil, h.relays.2.2.2⟩, lists := nofun
    chains := ⟨h.chains.1, within_nil⟩, wave := nofun, transition := nofun, plan := nofun
    context := by simp [hcontext] }

theorem ratedLife_written {c : ClassEntry} (h : c.ratedLife ≠ 0) (k : Nat) (w : Word) :
    (c.written k w).ratedLife ≠ 0 := by
  unfold ClassEntry.written
  dsimp only
  split <;> try exact h
  split_ifs <;> simp_all

theorem derate_written {c : ClassEntry} (h : c.derate.toNat ≤ 100) (k : Nat) (w : Word) :
    (c.written k w).derate.toNat ≤ 100 := by
  unfold ClassEntry.written
  dsimp only
  split <;> try exact h
  split_ifs <;> simp_all

theorem warn_written {c : ClassEntry} (h : c.warn ≠ 0) (k : Nat) (w : Word) : (c.written k w).warn ≠ 0 := by
  unfold ClassEntry.written
  dsimp only
  split <;> try exact h
  split_ifs <;> simp_all

theorem inRange_storeClass {s : State} (h : s.InRange) {i : Nat} (hi : i < 64) (w : Word) : (storeClass s i w).InRange := by
  have hentry : ∀ {P : ClassEntry → Prop}, (∀ c, P (s.topology.classes.get .initial c)) →
      (∀ c k, P c → P (c.written k w)) → ∀ c, P ((storeClass s i w).topology.classes.get .initial c) := by
    intro P hall hwritten c
    change P (Table.get _ (Table.put _ _ _ _) _)
    rw [table_get_put]
    split_ifs
    · exact hwritten _ _ (hall _)
    · exact hall c
  exact { h with
    ratedLife := hentry (P := fun c => c.ratedLife ≠ 0) h.ratedLife fun _ k hc => ratedLife_written hc k w
    derate := hentry (P := fun c => c.derate.toNat ≤ 100) h.derate fun _ k hc => derate_written hc k w
    warn := hentry (P := fun c => c.warn ≠ 0) h.warn fun _ k hc => warn_written hc k w
    topology := ⟨h.topology.1, within_put _ h.topology.2.1 (by omega) _, h.topology.2.2⟩ }

theorem inRange_storeDir {s : State} (h : s.InRange) {i : Nat} (hi : i < 256) (w : Word) : (storeDir s i w).InRange := by
  unfold storeDir
  split
  next d hd =>
    have hcount : d.count.toNat ≤ 64 := by
      unfold DirEntry.ofWord at hd
      split_ifs at hd with hle
      cases hd
      exact hle
    refine { h with store := ⟨within_put _ h.store.1 hi _, h.store.2⟩, count := fun j => ?_ }
    change (Table.get DirEntry.initial (Table.put _ _ _ _) _).count.toNat ≤ 64
    rw [table_get_put]
    split_ifs
    · exact hcount
    · exact h.count j
  · exact h

theorem inRange_storeConfig {s : State} (h : s.InRange) (i : Nat) (w : Word) : (storeConfig s i w).InRange := by
  have hvalue := (w.extractLsb' 0 16).isLt
  have hlimit := h.waveLimit
  have htimeout := h.guardTimeout
  have hweight := h.hotWeight
  have hparams : IsWaveLimit (s.control.params.written i w).waveLimit ∧
      (1 ≤ (s.control.params.written i w).guardTimeout ∧ (s.control.params.written i w).guardTimeout ≤ 65535) ∧
      (1 ≤ (s.control.params.written i w).hotWeight ∧ (s.control.params.written i w).hotWeight ≤ 255) := by
    unfold Params.written
    dsimp only
    split <;> dsimp only [IsWaveLimit] at * <;> omega
  exact { h with waveLimit := hparams.1, guardTimeout := hparams.2.1, hotWeight := hparams.2.2 }

theorem inRange_store {store : State → Nat → Word → State} {size : Nat} {topology : Bool}
    (hs : SpaceStore store size topology) {s : State} {i : Nat} (hi : i < size) (w : Word) (h : s.InRange) :
    (store s i w).InRange := by
  obtain ⟨hrelayMap, hclasses, hports, hsites, hpins, hportMap⟩ := h.topology
  cases hs with
  | relayMap => exact { h with topology := ⟨within_put _ hrelayMap hi _, hclasses, hports, hsites, hpins, hportMap⟩ }
  | cls => exact inRange_storeClass h hi w
  | ports =>
    unfold storePort
    split
    · exact { h with topology := ⟨hrelayMap, hclasses, within_put _ hports hi _, hsites, hpins, hportMap⟩ }
    · exact h
  | sites => exact { h with topology := ⟨hrelayMap, hclasses, hports, within_put _ hsites hi _, hpins, hportMap⟩ }
  | pins =>
    unfold storePin
    split
    · exact { h with topology := ⟨hrelayMap, hclasses, hports, hsites, within_put _ hpins hi _, hportMap⟩ }
    · exact h
  | portMap =>
    unfold storePortMap
    split
    · exact { h with topology := ⟨hrelayMap, hclasses, hports, hsites, hpins, within_put _ hportMap hi _⟩ }
    · exact h
  | directory => exact inRange_storeDir h hi w
  | entries =>
    unfold storeEntry
    split
    · exact { h with store := ⟨h.store.1, within_put _ h.store.2 hi _⟩ }
    · exact h
  | wear =>
    have hrelay : i / 2 < 1024 := by omega
    unfold storeWear
    dsimp only
    split_ifs
    · exact inRange_setWear h hrelay _
    · split
      · exact inRange_setWear h hrelay _
      · exact h
  | config => exact inRange_storeConfig h i w

theorem inRange_beginReset {s : State} (h : s.InRange) (source : ResetSource) (lost : Bool) :
    (s.beginReset source lost).InRange := by
  have hsoft : (State.softValues
      { s with control.resetting := some { source := source, linkLost := lost } }).InRange :=
    { h with
      relays := ⟨within_nil, within_nil, within_nil, h.relays.2.2.2⟩, lists := nofun
      chains := ⟨within_nil, within_nil⟩, wave := nofun, transition := nofun, plan := nofun, context := nofun }
  unfold State.beginReset
  dsimp only
  split_ifs
  · exact { hsoft with
      waveLimit := (by decide : IsWaveLimit 16), guardTimeout := (by decide : 1 ≤ 2000 ∧ 2000 ≤ 65535)
      hotWeight := (by decide : 1 ≤ 10 ∧ 10 ≤ 255)
      ratedLife := fun _ => (by decide : ClassEntry.initial.ratedLife ≠ 0)
      derate := fun _ => (by decide : ClassEntry.initial.derate.toNat ≤ 100)
      warn := fun _ => (by decide : ClassEntry.initial.warn ≠ 0)
      count := fun _ => (by decide : DirEntry.initial.count.toNat ≤ 64), notices := ⟨Nat.zero_le _, nofun⟩
      topology := ⟨within_nil, within_nil, within_nil, within_nil, within_nil, within_nil⟩
      store := ⟨within_nil, within_nil⟩, relays := ⟨within_nil, within_nil, within_nil, within_nil⟩ }
  · exact hsoft

/-! ### The rules -/

/-- That every index and parameter is in range, which holds between any two operations. -/
def claim : Claim := ⟨State.InRange, State.InRange, State.InRange, State.InRange⟩

theorem rules (pre : State → Prop) (b : Claim) : Rules pre b claim where
  beside hb _ h := by
    obtain ⟨p, n, q, rfl⟩ := hb
    exact { h with }
  raise _ _ h := { h with }
  guards _ h _ _ := { h with }
  unguarded _ h _ := h
  rests _ h _ := h
  opens _ h _ _ := inRange_formWave (by exact { h with }) _ _
  closes _ h _ _ _ := inRange_formWave (by exact { h with }) _ _
  completes _ h _ _ _ := { h with
    relays := ⟨h.relays.1, h.relays.2.1, within_nil, h.relays.2.2.2⟩, transition := nofun }
  suspends _ _ _ h := { h with }
  locksOut _ h := inRange_lockOut h
  guarded _ h _ := h
  heats {s t} _ h ht := { h with transition := by rintro _ ⟨⟩; exact h.transition t ht }
  faults _ _ _ _ _ h := inRange_fault h _ _ _ _
  resumes {s t} _ h _ ht := { h with transition := by rintro _ ⟨⟩; exact h.transition t ht }
  rollsBack {s t} _ _ h _ ht _ := by
    have hstart : (rolledBack s t).InRange := { h with
      relays := ⟨h.relays.1, h.relays.2.2.1, h.relays.2.2.1, h.relays.2.2.2⟩
      lists := fun r hr => (List.mem_append.mp hr).elim (within_relays h.relays.1 _ r) (within_relays h.relays.2.2.1 _ r)
      transition := by rintro _ ⟨⟩; exact h.transition t ht }
    exact ⟨fun _ => hstart, fun _ => { hstart with context := nofun }⟩
  safeOpens {s} _ _ h _ _ := by
    have hstart : (safeOpened s).InRange := { h with
      relays := ⟨h.relays.1, within_nil, h.relays.2.2.1, h.relays.2.2.2⟩
      lists := fun r hr => (List.mem_append.mp hr).elim (within_relays h.relays.1 _ r) nofun
      transition := by rintro _ ⟨⟩; exact h.waveLimit }
    exact ⟨fun _ => hstart, fun _ => { hstart with context := nofun }⟩
  notesAbort _ h _ := { h with }
  empties _ h := { h with plan := nofun }
  latches _ h _ := { h with
    plan := fun p hp => by
      obtain ⟨q, hq, rfl⟩ := Option.map_eq_some_iff.mp hp
      exact h.plan q hq }
  takes {s p} _ h _ _ hp _ := by
    obtain ⟨hlimit, hopens, hassigned⟩ := h.plan p hp
    have hclosing : ∀ r ∈ p.closes.map Prod.fst, r < 1024 := by
      intro r hr
      obtain ⟨e, he, rfl⟩ := List.mem_map.mp hr
      exact hassigned e (List.mem_append_left _ he)
    exact { h with
      relays := ⟨h.relays.1, within_plannedHoldings h.relays.2.1 hopens hassigned, h.relays.2.1, h.relays.2.2.2⟩
      lists := fun r hr => (List.mem_append.mp hr).elim (hopens r) (hclosing r)
      transition := by rintro _ ⟨⟩; exact hlimit
      plan := nofun }
  halts _ _ _ h := { h with }
  leavesHalt _ _ _ h := { h with }
  changesMode _ _ _ _ h := { h with }
  accepts _ _ _ _ h _ _ := { h with
    context := by
      rintro _ ⟨⟩
      exact ⟨h.waveLimit, h.relays.2.1, within_startingTarget h.relays.2.1 _ _⟩ }
  records _ _ h := { h with context := nofun }
  stages _ _ h hctx hp := { h with
    context := nofun
    plan := by
      rintro _ ⟨⟩
      have hplan := within_plan h hctx hp
      exact hplan }
  exchange ch x _ h _ := { h with chains := ⟨h.chains.1, within_put _ h.chains.2 ch.isLt x⟩ }
  rewaves {s w w'} _ h hw hrefines := { h with
    wave := by
      rintro _ ⟨⟩ x hx
      have hmem : x.relay ∈ w.relays.map WaveRelay.relay := hrefines.relays ▸ List.mem_map_of_mem hx
      obtain ⟨y, hy, heq⟩ := List.mem_map.mp hmem
      exact heq ▸ h.wave w hw y hy }
  marks {s w rs} _ h hw hrs := by
    have hin := relays_lt h hw
    exact { h with
      relays := ⟨within_foldl_put rs id (fun _ => Contact.unknown) (fun r hr => hin r (hrs.sublist.subset hr)) h.relays.1,
        h.relays.2⟩ }
  faultsWave _ _ _ _ _ h _ := inRange_fault h _ _ _ _
  degrades _ h hw hr := inRange_degrade h (relays_lt h hw _ hr)
  confirms {s w w' rs} f chains _ h hw hrefines hrs hchains _ := by
    have hin := relays_lt h hw
    refine inRange_confirmAll ?_ _ fun r hr => hin r (hrs.sublist.subset hr)
    refine { h with
      wave := ?_, chains := ⟨h.chains.1, within_foldl_put chains id f hchains h.chains.2⟩ }
    rintro _ ⟨⟩ x hx
    exact hin _ (hrefines.relays ▸ List.mem_map_of_mem hx)
  ends _ h _ := { h with wave := nofun, chains := ⟨h.chains.1, within_nil⟩ }
  settles _ h := h
  stores start ws hs _ hfits _ h :=
    Canonicity.storeWords_keeps (P := State.InRange) (fun _ i w hi hu => inRange_store hs hi w hu) start ws hfits h
  takesNotices {s} n _ h := { h with
    notices := ⟨le_trans (by rw [List.length_drop]; omega) h.notices.1, fun x hx => h.notices.2 x (List.mem_of_mem_drop hx)⟩ }
  validates _ _ h := { h with }
  entersRun _ h _ _ := { h with }
  entersConfigure _ h _ _ _ _ _ := { h with }
  acknowledges _ _ h := { h with }
  movesLines _ _ _ _ h := { h with }
  resets source lost _ h := inRange_beginReset h source lost
  recordsLinkLoss _ h _ := { h with }
  endsReset {s r} straps _ h _ := by
    unfold State.finishReset
    dsimp only
    split_ifs <;> exact { h with }

/-- Settles O57: each operation keeps both properties. -/
theorem stepsKeepTablesCanonicalAndInRange : Obligations.StepsKeepTablesCanonicalAndInRange := fun _ _ hstep =>
  ⟨Canonicity.step_canonical hstep, fun h => (rules (fun _ => True) .any).step hstep (fun _ _ => trivial) (fun _ hu => hu) h⟩

end Sys2Proof.Ranges
end

section
/-! Every step keeps the engine, the coil chains, the gate, the mode, the coil supply and the alerts in agreement. -/

namespace Sys2Proof.Agreement

open Sys2Proof.Machine Sys2Proof.Laws Sys2Proof.Effects Sys2Proof.Kept

/-! ### Between two operations of one event -/

/-- No wave, every chain IDLE, and a transition that is not suspended, in RUN: what holds before a phase begins. -/
structure BeforePhase (s : State) : Prop where
  mode : s.ModeAgrees
  run : s.control.mode = .run
  suspension : s.engine.suspension = .none
  suspendedPhase : s.engine.suspendedPhase = none
  wave : s.coil.wave = none
  chains : ∀ c, s.exchange c = .idle

/-- Where the engine goes on: QG stands for the transition in flight. -/
structure Ready (s : State) : Prop extends BeforePhase s where
  quiet : ∃ t, s.engine.transition = some t ∧ s.engine.quiet = t.guarded

/-- Where a transition starts or resumes: QG is released and no abort is noted. -/
structure Starting (s : State) : Prop extends BeforePhase s where
  transition : s.engine.transition ≠ none
  quiet : s.engine.quiet = 0
  abortNoted : s.engine.abortNoted = false

/-- The agreement of the blocks, between two events and within one. -/
def claim : Claim := ⟨State.Agrees, State.Agrees, Ready, Starting⟩

section

variable {s : State} (h : s.Agrees)
include h

theorem run_of_transition (ht : s.engine.transition ≠ none) : s.control.mode = .run := by
  have hphase : ¬ (s.engine.phase = .idle ∨ s.engine.phase = .lockout) := fun hp => ht (h.engine.record.mpr hp)
  cases hmode : s.control.mode with
  | run => rfl
  | configure => exact absurd (.inl (h.mode.configure hmode)) hphase
  | lockedOut => exact absurd (.inr (h.mode.lockout.mp hmode)) hphase

theorem transition_of_phase (hidle : s.engine.phase ≠ .idle) (hlock : s.engine.phase ≠ .lockout) :
    s.engine.transition ≠ none :=
  fun hnone => (h.engine.record.mp hnone).elim hidle hlock

theorem phase_of_wave {w : Wave} (hw : s.coil.wave = some w) :
    s.engine.phase = .opening ∨ s.engine.phase = .closing :=
  h.engine.wave.mp (by simp [hw])

theorem transition_of_wave {w : Wave} (hw : s.coil.wave = some w) : s.engine.transition ≠ none := by
  rcases phase_of_wave h hw with hp | hp <;> exact transition_of_phase h (by simp [hp]) (by simp [hp])

theorem run_of_wave {w : Wave} (hw : s.coil.wave = some w) : s.control.mode = .run :=
  run_of_transition h (transition_of_wave h hw)

theorem wave_eq_none (hopen : s.engine.phase ≠ .opening) (hclose : s.engine.phase ≠ .closing) : s.coil.wave = none :=
  Option.eq_none_iff_forall_ne_some.mpr fun _ hw => (phase_of_wave h hw).elim hopen hclose

theorem wave_of_exchange {c : Nat} (hx : s.exchange c ≠ .idle) : ∃ w, s.coil.wave = some w :=
  Option.ne_none_iff_exists'.mp fun hnone => hx (h.engine.chainsIdle hnone c)

/-- A transition in flight with no wave is where the engine goes on, once the chains are IDLE. -/
theorem ready_of_phase (hidle : s.engine.phase ≠ .idle) (hlock : s.engine.phase ≠ .lockout)
    (hsusp : s.engine.phase ≠ .suspended) (hwave : s.coil.wave = none) (hchains : ∀ c, s.exchange c = .idle) :
    Ready s where
  mode := h.mode
  run := run_of_transition h (transition_of_phase h hidle hlock)
  suspension := h.engine.suspension.mpr hsusp
  suspendedPhase := h.engine.suspendedPhase.mpr hsusp
  wave := hwave
  chains := hchains
  quiet := by
    obtain ⟨t, ht⟩ := Option.ne_none_iff_exists'.mp (transition_of_phase h hidle hlock)
    exact ⟨t, ht, h.engine.quietInFlight t ht hsusp⟩

/-- An engine at rest or suspended has QG released, no wave and no abort noted. -/
theorem quiet_of_rest (hphase : s.engine.phase = .idle ∨ s.engine.phase = .suspended) :
    s.engine.quiet = 0 ∧ s.coil.wave = none ∧ s.engine.abortNoted = false := by
  refine ⟨h.engine.quietAtRest (hphase.imp_left fun hp => h.engine.record.mpr (.inl hp)), ?_, ?_⟩
  · exact wave_eq_none h (by rcases hphase with hp | hp <;> simp [hp]) (by rcases hphase with hp | hp <;> simp [hp])
  · refine Bool.eq_false_of_not_eq_true fun habort => ?_
    have hwaves := h.engine.abortNoted habort
    rcases hphase with hp | hp <;> simp [hp] at hwaves

/-- A change of the wave alone, in the wave's own direction. -/
theorem agrees_wave {w w' : Wave} (hw : s.coil.wave = some w) (hclose : w'.close = w.close) :
    State.Agrees { s with coil.wave := some w' } :=
  ⟨{ h.engine with
      wave := by simpa [hw] using h.engine.wave
      direction := by
        rintro _ ⟨⟩
        rw [hclose]
        exact h.engine.direction w hw
      chainsIdle := nofun },
    { h.mode with }⟩

/-- While a wave runs the wear records, the alerts and the pending lists may change, the lists by losing members. -/
theorem agrees_confirm {w : Wave} (hw : s.coil.wave = some w) (close : Bool) (r : Nat) : (s.confirm close r).Agrees := by
  have hrun := run_of_wave h hw
  have ht := transition_of_wave h hw
  rw [confirm_frame]
  exact ⟨{ h.engine with
      atRest := fun hnone => absurd hnone ht
      breakBeforeMake := fun hp => by simp [h.engine.breakBeforeMake hp] },
    { h.mode with lockoutCalls := fun hlocked => by simp [hrun] at hlocked }⟩

theorem agrees_degrade {w : Wave} (hw : s.coil.wave = some w) (r : Nat) : (s.degrade r).Agrees := by
  have hrun := run_of_wave h hw
  rw [degrade_frame]
  exact ⟨{ h.engine with }, { h.mode with lockoutCalls := fun hlocked => by simp [hrun] at hlocked }⟩

theorem agrees_confirmAll {w : Wave} (hw : s.coil.wave = some w) (close : Bool) (rs : List Nat) :
    (s.confirmAll close rs).Agrees := by
  obtain ⟨p, n, -, heq⟩ := confirmAll_apart s close rs
  have hall : (s.confirmEach close (s.confirmOrder close rs)).Agrees ∧
      (s.confirmEach close (s.confirmOrder close rs)).coil.wave = some w := by
    refine List.foldlRecOn _ _ (motive := fun u : State => u.Agrees ∧ u.coil.wave = some w) ⟨h, hw⟩ ?_
    rintro u ⟨hu, huw⟩ r -
    exact ⟨agrees_confirm hu huw close r, by rw [confirm_frame]; exact huw⟩
  rw [heq]
  exact ⟨{ hall.1.engine with }, { hall.1.mode with }⟩

end

theorem agrees_lockOut {s : State} (h : Ready s) : s.lockOut.Agrees := by
  have hlocked := lockOut_locksOutTo s
  have hcontext : s.lockOut.resolver.context = none := by
    cases hctx : s.resolver.context with
    | none => rw [hlocked.idleResolver hctx, hctx]
    | some ctx => rw [hlocked.cancels ctx hctx]
  have hcalls : s.lockOut.isRaised .lockout = true := by simp [hlocked.causes]
  have hresetting : s.control.resetting = none := by
    by_contra hreset
    have hmode := h.mode.resetting hreset
    simp [h.run] at hmode
  generalize hv : s.lockOut.resolver = v at *
  generalize ha : s.lockOut.alerts = a at *
  have hrest := hlocked.rest
  rw [hv, ha] at hrest
  rw [hrest] at hcalls ⊢
  exact ⟨{
      record := by simp
      atRest := fun _ => ⟨rfl, rfl, fun _ => rfl⟩
      breakBeforeMake := nofun
      quietInFlight := nofun
      quietAtRest := fun _ => rfl
      guardWait := by simp
      abortNoted := nofun
      suspension := by simp
      suspendedPhase := by simp
      wave := by simp
      direction := nofun
      chainsIdle := fun _ _ => rfl },
    { h.mode with
      lockout := by simp
      configure := nofun
      atRest := fun _ => ⟨rfl, rfl, hcontext, fun _ => rfl⟩
      lockoutCalls := fun _ => hcalls
      resetting := fun hreset => absurd hresetting hreset
      supply := by simp
      bound := nofun }⟩

theorem agrees_beginReset {s : State} (h : s.Agrees) (source : ResetSource) (lost : Bool) :
    (s.beginReset source lost).Agrees := by
  have hsoft : (State.softValues
      { s with control.resetting := some { source := source, linkLost := lost } }).Agrees :=
    ⟨{
      record := by simp [State.softValues, Engine.initial]
      atRest := fun _ => ⟨rfl, rfl, fun _ => rfl⟩
      breakBeforeMake := nofun
      quietInFlight := nofun
      quietAtRest := fun _ => rfl
      guardWait := by simp [State.softValues, Engine.initial]
      abortNoted := nofun
      suspension := by simp [State.softValues, Engine.initial]
      suspendedPhase := by simp [State.softValues, Engine.initial]
      wave := by simp [State.softValues, Engine.initial]
      direction := nofun
      chainsIdle := fun _ _ => rfl },
    { lockout := by simp [State.softValues, Engine.initial]
      configure := fun _ => rfl
      atRest := fun _ => ⟨rfl, rfl, rfl, fun _ => rfl⟩
      lockoutCalls := nofun
      unmaskable := h.mode.unmaskable
      resetting := fun _ => rfl
      supply := by simp [State.softValues]
      bound := nofun
      reason := by simp [State.softValues, Gate.initial] }⟩
  unfold State.beginReset
  dsimp only
  split_ifs
  · exact ⟨{ hsoft.engine with }, { hsoft.mode with unmaskable := by simp [State.hardValues, Params.initial] }⟩
  · exact hsoft

/-- No store of a table touches the engine, the gate, the mode or the alerts, and none masks LOCKOUT. -/
theorem agrees_store {store : State → Nat → Word → State} {size : Nat} {topology : Bool}
    (hs : SpaceStore store size topology) {s : State} (i : Nat) (w : Word) (h : s.Agrees) : (store s i w).Agrees := by
  cases hs with
  | relayMap | cls | sites => exact ⟨{ h.engine with }, { h.mode with }⟩
  | ports =>
    unfold storePort
    split <;> exact ⟨{ h.engine with }, { h.mode with }⟩
  | pins =>
    unfold storePin
    split <;> exact ⟨{ h.engine with }, { h.mode with }⟩
  | portMap =>
    unfold storePortMap
    split <;> exact ⟨{ h.engine with }, { h.mode with }⟩
  | directory =>
    unfold storeDir
    split <;> exact ⟨{ h.engine with }, { h.mode with }⟩
  | entries =>
    unfold storeEntry
    split <;> exact ⟨{ h.engine with }, { h.mode with }⟩
  | wear =>
    obtain ⟨m, hm⟩ := WearSpace.storeWear_frame s i w
    rw [hm]
    exact ⟨{ h.engine with }, { h.mode with }⟩
  | config =>
    have hmask : (s.control.params.written i w).mask.getLsbD Cause.lockout.bit = false := by
      have hold := h.mode.unmaskable
      unfold Params.written
      dsimp only
      split
      case h_6 => simp [Cause.bit]
      all_goals exact hold
    exact ⟨{ h.engine with }, { h.mode with unmaskable := hmask }⟩

theorem agrees_fault {s : State} (h : s.Agrees) (k : FaultKind) (p : FaultPhase) (ch : Option (Fin 8))
    (rs : List Nat) : (s.fault k p ch rs).Agrees := by
  unfold State.fault
  split
  · exact h
  · exact ⟨{ h.engine with }, { h.mode with }⟩

theorem ready_fault {s : State} (h : Ready s) (k : FaultKind) (p : FaultPhase) (ch : Option (Fin 8))
    (rs : List Nat) : Ready (s.fault k p ch rs) := by
  unfold State.fault
  split
  · exact h
  · exact { h with mode := { h.mode with } }

/-- A wave formed as its phase begins. -/
theorem agrees_waving {s : State} {t : Transition} (h : Ready s) (ht : s.engine.transition = some t) (close : Bool)
    (hopens : close = true → s.engine.pendingOpen = []) : (waving s t close).Agrees := by
  obtain ⟨u, hu, hquiet⟩ := h.quiet
  have hphase : (waving s t close).engine.phase = if close then .closing else .opening := rfl
  have hrecord : (waving s t close).engine.transition = some t := ht
  refine ⟨{
      record := by cases close <;> simp [hphase, hrecord]
      atRest := fun hnone => by simp [hrecord] at hnone
      breakBeforeMake := fun hp => hopens (by cases close <;> simp [hphase] at hp ⊢)
      quietInFlight := fun v hv _ => by
        cases hu.symm.trans hv
        exact hquiet
      quietAtRest := fun hrest => by cases close <;> simp [hphase, hrecord] at hrest
      guardWait := by cases close <;> simp [hphase] <;> rfl
      abortNoted := fun _ => by cases close <;> simp [hphase]
      suspension := ?_
      suspendedPhase := ?_
      wave := by cases close <;> simp [hphase] <;> rfl
      direction := ?_
      chainsIdle := nofun },
    { h.mode with
      lockout := ?_
      configure := fun hmode => absurd (h.run.symm.trans hmode) (by decide) }⟩
  · exact iff_of_true h.suspension (by cases close <;> simp [hphase])
  · exact iff_of_true h.suspendedPhase (by cases close <;> simp [hphase])
  · rintro _ ⟨⟩
    cases close <;> simp [hphase]
  · refine iff_of_false (fun hmode => ?_) (by cases close <;> simp [hphase])
    exact absurd (h.run.symm.trans hmode) (by decide)

/-- What is left of a suspended transition, or of one at rest, when another starts. -/
theorem starting_of_rest {s u : State} (h : s.Agrees) (hphase : s.engine.phase = .idle ∨ s.engine.phase = .suspended)
    (hrun : s.control.mode = .run) (hmode : u.ModeAgrees) (hcontrol : u.control = s.control) (hcoil : u.coil = s.coil)
    (hsuspension : u.engine.suspension = .none) (hsuspendedPhase : u.engine.suspendedPhase = none)
    (htransition : u.engine.transition ≠ none) (hquiet : u.engine.quiet = s.engine.quiet)
    (habort : u.engine.abortNoted = s.engine.abortNoted) : Starting u := by
  obtain ⟨hzero, hwave, hnoted⟩ := quiet_of_rest h hphase
  exact {
    mode := hmode, run := hcontrol ▸ hrun, suspension := hsuspension, suspendedPhase := hsuspendedPhase
    wave := hcoil ▸ hwave, chains := fun c => by rw [State.exchange, hcoil]; exact h.engine.chainsIdle hwave c
    transition := htransition, quiet := hquiet.trans hzero, abortNoted := habort.trans hnoted }

/-- In RUN nothing that a transition starts with touches the agreement of the mode. -/
theorem modeAgrees_started {s u : State} (h : s.ModeAgrees) (hrun : s.control.mode = .run) (hcontrol : u.control = s.control)
    (hphase : u.engine.phase = s.engine.phase) (hcoil : u.coil = s.coil) (hbound : ∀ p, u.gate.slot = some p → p.bound = u.gate.latch)
    (hmode : u.gate.mode = s.gate.mode) (hreason : u.gate.reason = s.gate.reason) : u.ModeAgrees where
  lockout := by rw [hcontrol, hphase]; exact h.lockout
  configure := by rw [hcontrol, hphase]; exact h.configure
  atRest hnot := absurd (by rw [hcontrol, hrun]) hnot
  lockoutCalls hlocked := by simp [hcontrol, hrun] at hlocked
  unmaskable := by rw [hcontrol]; exact h.unmaskable
  resetting := by rw [hcontrol]; exact h.resetting
  supply := by rw [hcontrol, hcoil]; exact h.supply
  bound := hbound
  reason := by rw [hmode, hreason]; exact h.reason

theorem rules (pre : State → Prop) (b : Claim) : Rules pre b claim where
  beside hb _ h := by
    obtain ⟨p, n, q, rfl⟩ := hb
    exact ⟨{ h.engine with }, { h.mode with }⟩
  raise k _ h := ⟨{ h.engine with }, { h.mode with
    lockoutCalls := fun hlocked => by simp [isRaised_raise, h.mode.lockoutCalls hlocked] }⟩
  guards {s t} _ h ht _ := ⟨{
      record := by simp [guarding, ht]
      atRest := fun hnone => by simp [guarding, ht] at hnone
      breakBeforeMake := nofun
      quietInFlight := fun v hv _ => by
        cases ht.symm.trans hv
        rfl
      quietAtRest := fun hrest => by simp [guarding, ht] at hrest
      guardWait := by simp [guarding]
      abortNoted := fun habort => by simp [guarding, h.abortNoted] at habort
      suspension := by simp [guarding, h.suspension]
      suspendedPhase := by simp [guarding, h.suspendedPhase]
      wave := by simp [guarding, h.wave]
      direction := fun w hw => by simp [guarding, h.wave] at hw
      chainsIdle := fun _ => h.chains },
    { h.mode with
      lockout := by simp [guarding, h.run]
      configure := fun hmode => by simp [guarding, h.run] at hmode }⟩
  unguarded {s} _ h hzero := { h with
    quiet := by
      obtain ⟨t, ht⟩ := Option.ne_none_iff_exists'.mp h.transition
      exact ⟨t, ht, by rw [h.quiet, hzero t ht]⟩ }
  rests {s} _ h hnone := by
    obtain ⟨t, ht, -⟩ := h.quiet
    simp [hnone] at ht
  opens _ h ht _ := agrees_waving h ht false nofun
  closes _ h ht hopens _ := agrees_waving h ht true fun _ => hopens
  completes {s t} _ h _ hopens hcloses := ⟨{
      record := by simp [ended]
      atRest := fun _ => ⟨hopens, hcloses, fun _ => rfl⟩
      breakBeforeMake := nofun
      quietInFlight := nofun
      quietAtRest := fun _ => rfl
      guardWait := by simp [ended]
      abortNoted := nofun
      suspension := by simp [ended, h.suspension]
      suspendedPhase := by simp [ended, h.suspendedPhase]
      wave := by simp [ended, h.wave]
      direction := fun w hw => by simp [ended, h.wave] at hw
      chainsIdle := fun _ => h.chains },
    { h.mode with
      lockout := by simp [ended, h.run]
      configure := fun hmode => by simp [ended, h.run] at hmode }⟩
  suspends {s} r hr _ h := by
    obtain ⟨t, ht, -⟩ := h.quiet
    exact ⟨{
      record := by simp [suspended, ht]
      atRest := fun hnone => by simp [suspended, ht] at hnone
      breakBeforeMake := nofun
      quietInFlight := fun _ _ hne => absurd rfl hne
      quietAtRest := fun _ => rfl
      guardWait := by simp [suspended]
      abortNoted := nofun
      suspension := by simp [suspended, hr]
      suspendedPhase := by simp [suspended]
      wave := by simp [suspended, h.wave]
      direction := fun w hw => by simp [suspended, h.wave] at hw
      chainsIdle := fun _ => h.chains },
    { h.mode with
      lockout := by simp [suspended, h.run]
      configure := fun hmode => by simp [suspended, h.run] at hmode }⟩
  locksOut _ h := agrees_lockOut h
  guarded {s} _ h hphase := by
    have hwave := wave_eq_none h (by simp [hphase]) (by simp [hphase])
    exact ready_of_phase h (by simp [hphase]) (by simp [hphase]) (by simp [hphase]) hwave (h.engine.chainsIdle hwave)
  heats {s t} _ h ht := by
    obtain ⟨u, hu, hquiet⟩ := h.quiet
    cases hu.symm.trans ht
    exact { h with
      mode := { h.mode with lockoutCalls := fun hlocked => absurd (h.run.symm.trans hlocked) (by decide) }
      quiet := ⟨_, rfl, hquiet⟩ }
  faults k p ch rs _ h := ready_fault h k p ch rs
  resumes {s t} _ h hphase ht := by
    have hrun := run_of_transition h (by simp [ht])
    exact starting_of_rest h (.inr hphase) hrun (modeAgrees_started h.mode hrun rfl rfl rfl h.mode.bound rfl rfl) rfl rfl
      rfl rfl nofun rfl rfl
  rollsBack {s t} _ _ h hphase ht _ := by
    have hrun := run_of_transition h (by simp [ht])
    exact ⟨fun _ => starting_of_rest h (.inr hphase) hrun
        (modeAgrees_started h.mode hrun rfl rfl rfl h.mode.bound rfl rfl) rfl rfl rfl rfl nofun rfl rfl,
      fun _ => starting_of_rest h (.inr hphase) hrun
        (modeAgrees_started h.mode hrun rfl rfl rfl h.mode.bound rfl rfl) rfl rfl rfl rfl nofun rfl rfl⟩
  safeOpens {s} _ _ h hrun hphase :=
    ⟨fun _ => starting_of_rest h hphase hrun
        (modeAgrees_started h.mode hrun rfl rfl rfl h.mode.bound rfl rfl) rfl rfl rfl rfl nofun rfl rfl,
      fun _ => starting_of_rest h hphase hrun
        (modeAgrees_started h.mode hrun rfl rfl rfl h.mode.bound rfl rfl) rfl rfl rfl rfl nofun rfl rfl⟩
  notesAbort _ h hphase := ⟨{ h.engine with abortNoted := fun _ => hphase }, { h.mode with }⟩
  empties _ h := ⟨{ h.engine with }, { h.mode with
    atRest := fun hmode => ⟨rfl, rfl, (h.mode.atRest hmode).2.2⟩
    bound := nofun }⟩
  latches {s} _ h hrun := ⟨{ h.engine with }, { h.mode with
    atRest := fun hmode => absurd hrun hmode
    bound := fun p hp => by
      obtain ⟨q, -, rfl⟩ := Option.map_eq_some_iff.mp hp
      rfl }⟩
  takes {s p} _ h hphase _ hp _ := by
    have hrun : s.control.mode = .run := by
      by_contra hmode
      simp [(h.mode.atRest hmode).1] at hp
    have hsusp : s.engine.phase ≠ .suspended := by simp [hphase]
    exact starting_of_rest h (.inl hphase) hrun (modeAgrees_started h.mode hrun rfl rfl rfl nofun rfl rfl) rfl rfl
      (h.engine.suspension.mpr hsusp) (h.engine.suspendedPhase.mpr hsusp) nofun rfl rfl
  halts r hr _ h := ⟨{ h.engine with }, { h.mode with reason := by simp [hr] }⟩
  leavesHalt m hm _ h := ⟨{ h.engine with }, { h.mode with reason := by simp [hm] }⟩
  changesMode m hm hs _ h := ⟨{ h.engine with }, { h.mode with
    reason := iff_of_true (h.mode.reason.mpr hs) hm }⟩
  accepts a mode action _ h hrun _ := ⟨{ h.engine with }, { h.mode with atRest := fun hmode => absurd hrun hmode }⟩
  records r _ h := ⟨{ h.engine with }, { h.mode with
    atRest := fun hmode => by
      obtain ⟨hslot, hlatch, -, hheld⟩ := h.mode.atRest hmode
      exact ⟨hslot, hlatch, rfl, hheld⟩ }⟩
  stages {s ctx p} r _ h hctx _ := ⟨{ h.engine with }, { h.mode with
    atRest := fun hmode => by
      obtain ⟨-, -, hnone, -⟩ := h.mode.atRest hmode
      rw [hctx] at hnone
      cases hnone
    bound := by
      rintro _ ⟨⟩
      rfl }⟩
  exchange ch x _ h hx := by
    obtain ⟨w, hw⟩ := wave_of_exchange h hx
    exact ⟨{ h.engine with chainsIdle := fun hnone => absurd (hw.symm.trans hnone) (by simp) }, { h.mode with }⟩
  rewaves _ h hw hrefines := agrees_wave h hw hrefines.close
  marks _ h _ _ := ⟨{ h.engine with }, { h.mode with }⟩
  faultsWave k p ch rs _ h _ := agrees_fault h k p ch rs
  degrades _ h hw _ := agrees_degrade h hw _
  confirms {s w w' rs} f chains _ h hw hrefines _ _ _ := by
    have hwaved := agrees_wave h hw hrefines.close
    refine agrees_confirmAll (w := w') (s := { s with
      coil.wave := some w', coil.exchanges := exchangesSet s.coil.exchanges f chains }) ?_ rfl _ _
    exact ⟨{ hwaved.engine with chainsIdle := nofun }, { hwaved.mode with }⟩
  ends {s w} _ h hw := by
    have hrun := run_of_wave h hw
    obtain ⟨t, ht⟩ := Option.ne_none_iff_exists'.mp (transition_of_wave h hw)
    have hsusp : s.engine.phase ≠ .suspended := by rcases phase_of_wave h hw with hp | hp <;> simp [hp]
    exact {
      mode := { h.mode with }, run := hrun, suspension := h.engine.suspension.mpr hsusp
      suspendedPhase := h.engine.suspendedPhase.mpr hsusp, wave := rfl, chains := fun _ => rfl
      quiet := ⟨t, ht, h.engine.quietInFlight t ht hsusp⟩ }
  settles _ h := h
  stores start ws hs _ hfits _ h :=
    Canonicity.storeWords_keeps (P := State.Agrees) (fun _ i w _ hu => agrees_store hs i w hu) start ws hfits h
  takesNotices _ _ h := ⟨{ h.engine with }, { h.mode with }⟩
  validates _ _ h := ⟨{ h.engine with }, { h.mode with }⟩
  entersRun {s} _ h hreset hmode := by
    have hphase := h.mode.configure hmode
    have hsupply := h.mode.supply
    exact ⟨{ h.engine with }, { h.mode with
      lockout := by simp [hphase]
      configure := nofun
      atRest := fun hnot => absurd rfl hnot
      lockoutCalls := nofun
      resetting := fun hsome => absurd hreset hsome
      supply := by simpa [hmode] using hsupply }⟩
  entersConfigure {s} _ h hcontext hphase hheld hslot hrun := by
    have hsupply := h.mode.supply
    have hnone : ∀ r, ownerOf s.engine.holdings r = none := by
      intro r
      by_contra howner
      have hmem := List.any_eq_false.mp hheld _ (Resolving.mem_of_get_ne howner)
      exact howner (by simpa [ownerOf] using hmem)
    exact ⟨{ h.engine with }, { h.mode with
      lockout := by simp [hphase]
      configure := fun _ => hphase
      atRest := fun _ => ⟨hslot, rfl, hcontext, hnone⟩
      lockoutCalls := nofun
      resetting := fun _ => rfl
      supply := by simpa [hrun] using hsupply
      bound := fun p hp => by simp [hslot] at hp }⟩
  acknowledges {s} operand _ h := ⟨{ h.engine with }, { h.mode with
    lockoutCalls := fun hlocked => by
      rw [ControlFrames.isRaised_ackAlert, h.mode.lockoutCalls hlocked]
      simp }⟩
  movesLines _ _ _ _ h := ⟨{ h.engine with }, { h.mode with }⟩
  resets source lost _ h := agrees_beginReset h source lost
  recordsLinkLoss {s r} _ h hr := by
    have hmode := h.mode.resetting (by simp [hr])
    have hsupply := h.mode.supply
    exact ⟨{ h.engine with }, { h.mode with
      resetting := fun _ => hmode
      supply := by simpa [hr] using hsupply }⟩
  endsReset {s r} straps _ h hr := by
    have hmode := h.mode.resetting (by simp [hr])
    unfold State.finishReset
    dsimp only
    split_ifs <;> exact ⟨{ h.engine with }, { h.mode with
      lockoutCalls := fun hlocked => by simp [State.raise, hmode] at hlocked
      resetting := fun hsome => absurd rfl hsome
      supply := by simp [State.raise, hmode] }⟩

/-- Settles O58: each operation keeps the agreement, through what holds before a phase begins. -/
theorem stepsKeepTheBlocksInAgreement : Obligations.StepsKeepTheBlocksInAgreement := fun _ _ h hstep =>
  (rules (fun _ => True) .any).step hstep (fun _ _ => trivial) (fun _ hu => hu) h

end Sys2Proof.Agreement
end

section
/-! Every step keeps UNKNOWN relays pending, the pending lists in order and apart, and no absent relay held. -/

namespace Sys2Proof.Pending

open Sys2Proof.Machine Sys2Proof.Laws Sys2Proof.Effects Sys2Proof.Kept

/-! ### What stores and confirmations leave -/

/-- A store changes its own table alone; only a topology store changes the topology. -/
theorem store_frame {store : State → Nat → Word → State} {size : Nat} {topology : Bool}
    (hs : SpaceStore store size topology) (s : State) (i : Nat) (w : Word) :
    ∃ tp st rec pr, store s i w =
        { s with topology := tp, store := st, wear.records := rec, control.params := pr } ∧
      (topology = false → tp = s.topology) := by
  cases hs with
  | relayMap | cls | sites => exact ⟨_, _, _, _, rfl, nofun⟩
  | ports =>
    unfold storePort
    split <;> exact ⟨_, _, _, _, rfl, nofun⟩
  | pins =>
    unfold storePin
    split <;> exact ⟨_, _, _, _, rfl, nofun⟩
  | portMap =>
    unfold storePortMap
    split <;> exact ⟨_, _, _, _, rfl, nofun⟩
  | directory =>
    unfold storeDir
    split <;> exact ⟨_, _, _, _, rfl, fun _ => rfl⟩
  | entries =>
    unfold storeEntry
    split <;> exact ⟨_, _, _, _, rfl, fun _ => rfl⟩
  | wear =>
    obtain ⟨m, hm⟩ := WearSpace.storeWear_frame s i w
    exact ⟨_, _, _, _, hm, fun _ => rfl⟩
  | config => exact ⟨_, _, _, _, rfl, fun _ => rfl⟩

theorem storeWords_frame {store : State → Nat → Word → State} {size : Nat} {topology : Bool}
    (hs : SpaceStore store size topology) (s : State) (start : Nat) (ws : List Word) :
    ∃ tp st rec pr, storeWords store s start ws =
        { s with topology := tp, store := st, wear.records := rec, control.params := pr } ∧
      (topology = false → tp = s.topology) := by
  induction ws generalizing s start with
  | nil => exact ⟨_, _, _, _, rfl, fun _ => rfl⟩
  | cons w ws ih =>
    obtain ⟨tp, st, rec, pr, hone, htop⟩ := store_frame hs s start w
    obtain ⟨tp', st', rec', pr', hall, htop'⟩ := ih (store s start w) (start + 1)
    refine ⟨tp', st', rec', pr', ?_, fun hfalse => ?_⟩
    · rw [storeWords, hall, hone]
    · rw [htop' hfalse, hone]
      exact htop hfalse

theorem nodup_of_unconfirmed {w : Wave} {rs : List Nat} (hrs : Unconfirmed w rs)
    (hasc : Ascending (w.relays.map WaveRelay.relay)) : rs.Nodup :=
  (hasc.sublist hrs.sublist).nodup

/-- What the confirmations of one event leave, whatever a READ takes among them. -/
theorem confirmAll_confirmed (s : State) (close : Bool) {rs : List Nat} (hrs : rs.Nodup) :
    ∃ u, Beside u (s.confirmAll close rs) ∧ Confirmed s u close rs := by
  obtain ⟨p, n, -, heq⟩ := confirmAll_apart s close rs
  have hperm := confirmOrder_perm s close rs
  have hmem : ∀ r, r ∈ s.confirmOrder close rs ↔ r ∈ rs := fun r => hperm.mem_iff
  have hc := confirmEach_confirmed close (s.confirmOrder close rs) s (hperm.nodup_iff.mpr hrs)
  refine ⟨_, ⟨p, n, _, heq⟩, hc.rest, fun r => ?_, ?_, ?_, fun r => ?_⟩
  · simpa only [hmem] using hc.actual r
  · simpa only [hmem] using hc.opens
  · simpa only [hmem] using hc.closes
  · simpa only [hmem] using hc.counts r

/-- Canonical tables and blocks in agreement: what the rules below stand on. -/
def base : Claim := Canonicity.claim.and Agreement.claim

theorem base_rules (pre : State → Prop) : Rules pre .any base :=
  (Canonicity.rules pre).and (Agreement.rules pre Canonicity.claim)

/-! ### The pending lists -/

/-- That UNKNOWN relays are pending, between any two operations. -/
def claim : Claim := ⟨State.PendingAgrees, State.PendingAgrees, State.PendingAgrees, State.PendingAgrees⟩

theorem ascending_relays {α : Type} [DecidableEq α] {d : α} {t : Table α} (h : Table.wf d t) (p : Nat × α → Bool) :
    Ascending ((t.filter p).map Prod.fst) :=
  List.pairwise_map.mpr (h.1.filter p)

/-- With nothing on the lists no relay is UNKNOWN. -/
theorem known_of_empty {s : State} (h : s.PendingAgrees) (hopens : s.engine.pendingOpen = [])
    (hcloses : s.engine.pendingClose = []) (r : Nat) : Table.get .opened s.engine.actual r ≠ .unknown := by
  intro hr
  have hmem := h.unknown r hr
  simp [hopens, hcloses] at hmem

theorem mem_rollbackOpens {s : State} (h : s.Canonical) (r : Nat) :
    r ∈ s.rollbackOpens ↔ Table.get .opened s.engine.actual r ≠ .opened ∧ ownerOf s.engine.baseMap r = none := by
  simp only [State.rollbackOpens, List.mem_map, List.mem_filter, Bool.and_eq_true, decide_eq_true_eq, Prod.exists,
    exists_and_right, exists_eq_right, table_mem_iff_get Contact.opened _ h.actual]
  constructor
  · rintro ⟨x, ⟨hne, hx⟩, -, hbase⟩
    exact ⟨hx ▸ hne, hbase⟩
  · rintro ⟨hne, hbase⟩
    exact ⟨_, ⟨hne, rfl⟩, hne, hbase⟩

theorem mem_rollbackCloses {s : State} (h : s.Canonical) (r : Nat) :
    r ∈ s.rollbackCloses ↔ Table.get .opened s.engine.actual r ≠ .closed ∧ ownerOf s.engine.baseMap r ≠ none := by
  simp only [State.rollbackCloses, List.mem_map, List.mem_filter, Bool.and_eq_true, decide_eq_true_eq, Prod.exists,
    exists_and_right, exists_eq_right, table_mem_iff_get none _ h.baseMap, Option.isSome_iff_ne_none]
  constructor
  · rintro ⟨x, ⟨hne, hx⟩, -, hopen⟩
    exact ⟨hopen, by rw [ownerOf, hx]; exact hne⟩
  · rintro ⟨hopen, hheld⟩
    exact ⟨_, ⟨hheld, rfl⟩, hheld, hopen⟩

theorem mem_safeOpens {s : State} (h : s.Canonical) (r : Nat) :
    r ∈ s.safeOpens ↔ Table.get .opened s.engine.actual r ≠ .opened := by
  simp only [State.safeOpens, List.mem_map, List.mem_filter, decide_eq_true_eq, Prod.exists, exists_and_right,
    exists_eq_right, table_mem_iff_get Contact.opened _ h.actual]
  constructor
  · rintro ⟨x, ⟨hne, hx⟩, -⟩
    exact hx ▸ hne
  · exact fun hne => ⟨_, ⟨hne, rfl⟩, hne⟩

/-- A wave formed from the front of a list. -/
theorem pending_waving {s : State} (h : s.PendingAgrees) (t : Transition) (close : Bool) :
    (waving s t close).PendingAgrees where
  unknown := h.unknown
  opens := h.opens
  closes := h.closes
  apart := h.apart
  wave := by
    rintro _ ⟨⟩ x hx -
    obtain ⟨r, hr, rfl⟩ := List.mem_map.mp hx
    cases close with
    | true => exact List.mem_of_mem_take hr
    | false => exact List.mem_of_mem_take hr
  waveOrder := by
    rintro _ ⟨⟩
    rw [List.map_map]
    change Ascending (List.map id _)
    rw [List.map_id]
    cases close with
    | true => exact h.closes.sublist (List.take_sublist ..)
    | false => exact h.opens.sublist (List.take_sublist ..)
  planOpens := h.planOpens
  planCloses := h.planCloses
  planApart := h.planApart

theorem pending_lockOut {s : State} : s.lockOut.PendingAgrees := by
  rw [(lockOut_locksOutTo s).rest]
  exact { unknown := nofun, opens := .nil, closes := .nil, apart := nofun, wave := nofun, waveOrder := nofun
          planOpens := nofun, planCloses := nofun, planApart := nofun }

theorem pending_fault {s : State} (h : s.PendingAgrees) (k : FaultKind) (p : FaultPhase) (ch : Option (Fin 8))
    (rs : List Nat) : (s.fault k p ch rs).PendingAgrees := by
  unfold State.fault
  split
  · exact h
  · exact { h with }

/-- A wave with other statuses waits for relays that were waited for before. -/
theorem pending_rewaved {s : State} {w w' : Wave} (h : s.PendingAgrees) (hw : s.coil.wave = some w)
    (hrefines : Refines w w') : State.PendingAgrees { s with coil.wave := some w' } :=
  { h with
    wave := by
      rintro _ ⟨⟩ x hx hstatus
      obtain ⟨y, hy, hrelay, hstatus'⟩ := hrefines.unconfirmed x hx hstatus
      rw [hrefines.close, ← hrelay]
      exact h.wave w hw y hy hstatus'
    waveOrder := by
      rintro _ ⟨⟩
      rw [hrefines.relays]
      exact h.waveOrder w hw }

/-- Relays of the wave that are not confirmed are pending, so they may become UNKNOWN. -/
theorem pending_markUnknown {s : State} {w : Wave} {rs : List Nat} (h : s.PendingAgrees) (hw : s.coil.wave = some w)
    (hrs : Unconfirmed w rs) : (s.markUnknown rs).PendingAgrees :=
  { h with
    unknown := fun r hr => by
      rw [markUnknown_get] at hr
      split_ifs at hr with hmem
      · obtain ⟨x, hx, rfl, hstatus⟩ := hrs.status r hmem
        have hpending := h.wave w hw x hx hstatus
        split_ifs at hpending
        · exact .inr hpending
        · exact .inl hpending
      · exact h.unknown r hr }

/-- A transition of a new number with fresh lists and no wave. -/
theorem pending_started {s u : State} (h : s.PendingAgrees) (hwave : u.coil.wave = none)
    (hslot : u.gate.slot = none ∨ u.gate.slot = s.gate.slot)
    (hunknown : ∀ r, Table.get .opened u.engine.actual r = .unknown →
      r ∈ u.engine.pendingOpen ∨ r ∈ u.engine.pendingClose)
    (hopens : Ascending u.engine.pendingOpen) (hcloses : Ascending u.engine.pendingClose)
    (hapart : ∀ r, r ∈ u.engine.pendingOpen → r ∉ u.engine.pendingClose) : u.PendingAgrees := by
  have hplan : ∀ p, u.gate.slot = some p → s.gate.slot = some p := by
    intro p hp
    rcases hslot with hnone | hsame
    · rw [hnone] at hp
      cases hp
    · rw [← hsame, hp]
  exact {
    unknown := hunknown, opens := hopens, closes := hcloses, apart := hapart
    wave := fun w hw => by simp [hwave] at hw
    waveOrder := fun w hw => by simp [hwave] at hw
    planOpens := fun p hp => h.planOpens p (hplan p hp)
    planCloses := fun p hp => h.planCloses p (hplan p hp)
    planApart := fun p hp => h.planApart p (hplan p hp) }

theorem pending_rolledBack {s u : State} (hb : base.inv s) (h : s.PendingAgrees) (hphase : s.engine.phase = .suspended)
    (hcoil : u.coil = s.coil) (hgate : u.gate = s.gate) (hactual : u.engine.actual = s.engine.actual)
    (hopens : u.engine.pendingOpen = s.rollbackOpens) (hcloses : u.engine.pendingClose = s.rollbackCloses) :
    u.PendingAgrees := by
  obtain ⟨hcanon, hagree⟩ := hb
  obtain ⟨-, hwave, -⟩ := Agreement.quiet_of_rest hagree (.inr hphase)
  refine pending_started h (hcoil ▸ hwave) (.inr (by rw [hgate])) (fun r hr => ?_) ?_ ?_ fun r ho hc => ?_
  · rw [hactual] at hr
    rw [hopens, hcloses, mem_rollbackOpens hcanon, mem_rollbackCloses hcanon, hr]
    by_cases hbase : ownerOf s.engine.baseMap r = none <;> simp [hbase]
  · rw [hopens]
    exact ascending_relays hcanon.actual _
  · rw [hcloses]
    exact ascending_relays hcanon.baseMap _
  · rw [hopens, mem_rollbackOpens hcanon] at ho
    rw [hcloses, mem_rollbackCloses hcanon] at hc
    exact hc.2 ho.2

theorem pending_safeOpened {s u : State} (hb : base.inv s) (h : s.PendingAgrees)
    (hphase : s.engine.phase = .idle ∨ s.engine.phase = .suspended) (hcoil : u.coil = s.coil) (hgate : u.gate = s.gate)
    (hactual : u.engine.actual = s.engine.actual) (hopens : u.engine.pendingOpen = s.safeOpens)
    (hcloses : u.engine.pendingClose = []) : u.PendingAgrees := by
  obtain ⟨hcanon, hagree⟩ := hb
  obtain ⟨-, hwave, -⟩ := Agreement.quiet_of_rest hagree hphase
  refine pending_started h (hcoil ▸ hwave) (.inr (by rw [hgate])) (fun r hr => ?_) ?_ ?_ fun r _ hc => ?_
  · rw [hactual] at hr
    rw [hopens, mem_safeOpens hcanon, hr]
    exact .inl (by decide)
  · rw [hopens]
    exact ascending_relays hcanon.actual _
  · rw [hcloses]
    exact .nil
  · rw [hcloses] at hc
    cases hc

theorem pending_beginReset (s : State) (source : ResetSource) (lost : Bool) :
    (s.beginReset source lost).PendingAgrees := by
  unfold State.beginReset
  dsimp only
  split_ifs <;> exact {
    unknown := nofun, opens := .nil, closes := .nil, apart := nofun, wave := nofun, waveOrder := nofun
    planOpens := nofun, planCloses := nofun, planApart := nofun }

theorem rules (pre : State → Prop) : Rules pre base claim where
  beside hb _ h := by
    obtain ⟨p, n, q, rfl⟩ := hb
    exact { h with }
  raise _ _ h := { h with }
  guards _ h _ _ := { h with }
  unguarded _ h _ := h
  rests _ h _ := h
  opens _ h _ _ := pending_waving h _ _
  closes _ h _ _ _ := pending_waving h _ _
  completes _ h _ _ _ := { h with }
  suspends _ _ _ h := { h with }
  locksOut _ _ := pending_lockOut
  guarded _ h _ := h
  heats _ h _ := { h with }
  faults _ _ _ _ _ h := pending_fault h _ _ _ _
  resumes _ h _ _ := { h with }
  rollsBack _ hb h hphase _ _ :=
    ⟨fun _ => pending_rolledBack hb h hphase rfl rfl rfl rfl rfl,
      fun _ => pending_rolledBack hb h hphase rfl rfl rfl rfl rfl⟩
  safeOpens _ hb h _ hphase :=
    ⟨fun _ => pending_safeOpened hb h hphase rfl rfl rfl rfl rfl,
      fun _ => pending_safeOpened hb h hphase rfl rfl rfl rfl rfl⟩
  notesAbort _ h _ := { h with }
  empties _ h := { h with planOpens := nofun, planCloses := nofun, planApart := nofun }
  latches _ h _ := { h with
    planOpens := fun p hp => by
      obtain ⟨q, hq, rfl⟩ := Option.map_eq_some_iff.mp hp
      exact h.planOpens q hq
    planCloses := fun p hp => by
      obtain ⟨q, hq, rfl⟩ := Option.map_eq_some_iff.mp hp
      exact h.planCloses q hq
    planApart := fun p hp => by
      obtain ⟨q, hq, rfl⟩ := Option.map_eq_some_iff.mp hp
      exact h.planApart q hq }
  takes {s p} hb h hphase _ hp _ := by
    obtain ⟨-, hwave, -⟩ := Agreement.quiet_of_rest hb.2 (.inl hphase)
    obtain ⟨hopens, hcloses, -⟩ := hb.2.engine.atRest (hb.2.engine.record.mpr (.inl hphase))
    exact pending_started (u := planTaken (unlatched s) p) h hwave (.inl rfl)
      (fun r hr => absurd hr (known_of_empty h hopens hcloses r)) (h.planOpens p hp) (h.planCloses p hp) (h.planApart p hp)
  halts _ _ _ h := { h with }
  leavesHalt _ _ _ h := { h with }
  changesMode _ _ _ _ h := { h with }
  accepts _ _ _ _ h _ _ := { h with }
  records _ _ h := { h with }
  stages {s ctx p} r hb h hctx hp := by
    obtain ⟨-, target, hbuild, -, rfl⟩ := (Targets.resolve_eq_ok_iff s ctx p).mp hp
    have hbase := hb.1.base ctx hctx
    have htarget := Targets.wf_buildTarget hbuild (hb.1.target ctx hctx)
    obtain ⟨hopens, -, -, hopensAsc, hclosesAsc, -, -⟩ := Delta.deltaSortsEveryRelay ctx.base target hbase htarget
    exact { h with
      planOpens := by
        rintro _ ⟨⟩
        exact hopensAsc
      planCloses := by
        rintro _ ⟨⟩
        exact hclosesAsc
      planApart := by
        rintro _ ⟨⟩ x hx hc
        exact ((Delta.mem_closeSet_relays_iff ctx.base htarget x).mp hc).2 ((hopens x).mp hx).2 }
  exchange _ _ _ h _ := { h with }
  rewaves _ h hw hrefines := pending_rewaved h hw hrefines
  marks _ h hw hrs := pending_markUnknown h hw hrs
  faultsWave _ _ _ _ _ h _ := pending_fault h _ _ _ _
  degrades _ h _ _ := by
    rw [degrade_frame]
    exact { h with }
  confirms {s w w' rs} f chains _ h hw hrefines hrs _ hapart := by
    have hasc := h.waveOrder w hw
    obtain ⟨u, ⟨p, n, q, hu⟩, hc⟩ := confirmAll_confirmed
      { s with coil.wave := some w', coil.exchanges := exchangesSet s.coil.exchanges f chains } w.close (nodup_of_unconfirmed hrs hasc)
    have hcoil : u.coil.wave = some w' := by rw [hc.rest]
    have hgate : u.gate = s.gate := by rw [hc.rest]
    have hopens : ∀ r, r ∈ u.engine.pendingOpen ↔ r ∈ s.engine.pendingOpen ∧ r ∉ rs := by simp [hc.opens]
    have hcloses : ∀ r, r ∈ u.engine.pendingClose ↔ r ∈ s.engine.pendingClose ∧ r ∉ rs := by simp [hc.closes]
    rw [hu]
    exact {
      unknown := fun r hr => by
        have hactual := hc.actual r
        rw [show Table.get .opened u.engine.actual r = .unknown from hr] at hactual
        split_ifs at hactual with hmem
        exact (h.unknown r hactual.symm).imp (fun ho => (hopens r).mpr ⟨ho, hmem⟩) fun hx => (hcloses r).mpr ⟨hx, hmem⟩
      opens := by rw [show _ = _ from hc.opens]; exact h.opens.filter _
      closes := by rw [show _ = _ from hc.closes]; exact h.closes.filter _
      apart := fun r ho hx => h.apart r ((hopens r).mp ho).1 ((hcloses r).mp hx).1
      wave := by
        intro v hv x hx hstatus
        cases hcoil.symm.trans hv
        obtain ⟨y, hy, hrelay, hstatus'⟩ := hrefines.unconfirmed x hx hstatus
        have hpending := h.wave w hw y hy hstatus'
        have hnot := hapart hasc x hx hstatus
        rw [hrelay] at hpending
        rw [hrefines.close]
        split_ifs at hpending ⊢
        · exact (hcloses _).mpr ⟨hpending, hnot⟩
        · exact (hopens _).mpr ⟨hpending, hnot⟩
      waveOrder := by
        intro v hv
        cases hcoil.symm.trans hv
        rw [hrefines.relays]
        exact hasc
      planOpens := fun p hp => h.planOpens p (hgate ▸ hp)
      planCloses := fun p hp => h.planCloses p (hgate ▸ hp)
      planApart := fun p hp => h.planApart p (hgate ▸ hp) }
  ends _ h _ := { h with wave := nofun, waveOrder := nofun }
  settles _ h := h
  stores start ws hs _ _ _ h := by
    obtain ⟨_, _, _, _, heq, -⟩ := storeWords_frame hs _ start ws
    rw [heq]
    exact { h with }
  takesNotices _ _ h := { h with }
  validates _ _ h := { h with }
  entersRun _ h _ _ := { h with }
  entersConfigure _ h _ _ _ _ _ := { h with }
  acknowledges _ _ h := { h with }
  movesLines _ _ _ _ h := { h with }
  resets source lost _ _ := pending_beginReset _ source lost
  recordsLinkLoss _ h _ := { h with }
  endsReset _ _ h _ := by
    unfold State.finishReset
    dsimp only
    split_ifs <;> exact { h with }

theorem step_pending {s t : State} (hstep : step s = .next t) (hc : s.Canonical) (ha : s.Agrees) (h : s.PendingAgrees) :
    t.PendingAgrees :=
  (((base_rules fun _ => True).and (rules fun _ => True)).step hstep (fun _ _ => trivial) (fun _ hu => hu) ⟨⟨hc, ha⟩, h⟩).2

end Sys2Proof.Pending
end

section
/-! No step gives an absent relay to an owner (R4, R27). -/

namespace Sys2Proof.Presence

open Sys2Proof.Machine Sys2Proof.Laws Sys2Proof.Effects Sys2Proof.Kept

/-- That no absent relay is held, between any two operations. -/
def claim : Claim := ⟨State.HoldsPresent, State.HoldsPresent, State.HoldsPresent, State.HoldsPresent⟩

/-- A relay that a plan leaves held was held before or is one that the plan assigns. -/
theorem held_of_plannedHoldings {h : Holdings} {p : Plan} {r : Nat} (hheld : ownerOf (plannedHoldings h p) r ≠ none) :
    ownerOf h r ≠ none ∨ ∃ e ∈ p.closes ++ p.reassigned, e.1 = r := by
  by_cases hassigned : ∃ e ∈ p.closes ++ p.reassigned, e.1 = r
  · exact .inr hassigned
  · refine .inl fun hnone => hheld ?_
    rw [plannedHoldings, Plans.assignOwners_append,
      assignOwners_get_of_not_mem _ _ _ fun e he heq => hassigned ⟨e, he, heq⟩, dropOwners_get, hnone, ite_self]

theorem held_of_startingTarget {h : Holdings} (hwf : Table.wf none h) {mode : StepMode} {mask : BitVec 9} {r : Nat}
    (hheld : ownerOf (startingTarget mode h mask) r ≠ none) : ownerOf h r ≠ none := by
  rw [Targets.ownerOf_startingTarget hwf] at hheld
  split_ifs at hheld
  · exact absurd rfl hheld
  · exact hheld

/-- The relays that a plan of a resolution assigns are held in its target, and so present. -/
theorem present_of_plan {s : State} {ctx : Resolution} {p : Plan} (hc : s.Canonical) (h : s.HoldsPresent)
    (hctx : s.resolver.context = some ctx) (hp : s.resolve ctx = .ok p) :
    ∀ e ∈ p.closes ++ p.reassigned, (s.relay e.1).present = true := by
  obtain ⟨-, target, hbuild, -, rfl⟩ := (Targets.resolve_eq_ok_iff s ctx p).mp hp
  have htarget := Targets.wf_buildTarget hbuild (hc.target ctx hctx)
  rintro ⟨r, o⟩ he
  have hheld : ownerOf target r = some o := by
    rcases List.mem_append.mp he with hclose | hre
    · exact ((Delta.mem_closeSet_iff ctx.base htarget r o).mp hclose).2
    · exact ((Delta.mem_reassignedSet_iff ctx.base htarget r o).mp hre).1
  rcases Targets.listed_of_buildTarget hbuild (by rw [hheld]; nofun) with hstart | ⟨x, hx, hpresent⟩
  · exact h.target ctx hctx r hstart
  · rw [Resolving.relay_of_mem hc.relayMap hx]
    exact hpresent

/-- Without a relay held or to be held nothing is asked of the relay map. -/
theorem holdsPresent_of_none {s : State} (hholdings : ∀ r, ownerOf s.engine.holdings r = none)
    (hbase : ∀ r, ownerOf s.engine.baseMap r = none) (hcontext : s.resolver.context = none) (hslot : s.gate.slot = none) :
    s.HoldsPresent where
  holdings r hr := absurd (hholdings r) hr
  baseMap r hr := absurd (hbase r) hr
  base ctx hctx := by simp [hcontext] at hctx
  target ctx hctx := by simp [hcontext] at hctx
  plan p hp := by simp [hslot] at hp

theorem holdsPresent_lockOut (s : State) : s.lockOut.HoldsPresent := by
  have hlocked := lockOut_locksOutTo s
  have hcontext : s.lockOut.resolver.context = none := by
    cases hctx : s.resolver.context with
    | none => rw [hlocked.idleResolver hctx, hctx]
    | some ctx => rw [hlocked.cancels ctx hctx]
  rw [hlocked.rest]
  exact holdsPresent_of_none (fun _ => rfl) (fun _ => rfl) hcontext rfl

theorem holdsPresent_fault {s : State} (h : s.HoldsPresent) (k : FaultKind) (p : FaultPhase) (ch : Option (Fin 8))
    (rs : List Nat) : (s.fault k p ch rs).HoldsPresent := by
  unfold State.fault
  split
  · exact h
  · exact { h with }

theorem holdsPresent_beginReset (s : State) (source : ResetSource) (lost : Bool) :
    (s.beginReset source lost).HoldsPresent := by
  unfold State.beginReset
  dsimp only
  split_ifs <;> exact holdsPresent_of_none (fun _ => rfl) (fun _ => rfl) rfl rfl

theorem rules (pre : State → Prop) : Rules pre Pending.base claim where
  beside hb _ h := by
    obtain ⟨p, n, q, rfl⟩ := hb
    exact { h with }
  raise _ _ h := { h with }
  guards _ h _ _ := { h with }
  unguarded _ h _ := h
  rests _ h _ := h
  opens _ h _ _ := { h with }
  closes _ h _ _ _ := { h with }
  completes _ h _ _ _ := { h with baseMap := fun _ hr => absurd rfl hr }
  suspends _ _ _ h := { h with }
  locksOut _ _ := holdsPresent_lockOut _
  guarded _ h _ := h
  heats _ h _ := { h with }
  faults _ _ _ _ _ h := holdsPresent_fault h _ _ _ _
  resumes _ h _ _ := { h with }
  rollsBack _ _ h _ _ _ :=
    ⟨fun _ => { h with holdings := h.baseMap }, fun _ => { h with holdings := h.baseMap, base := nofun, target := nofun }⟩
  safeOpens _ _ h _ _ :=
    ⟨fun _ => { h with holdings := fun _ hr => absurd rfl hr },
      fun _ => { h with holdings := fun _ hr => absurd rfl hr, base := nofun, target := nofun }⟩
  notesAbort _ h _ := { h with }
  empties _ h := { h with plan := nofun }
  latches _ h _ := { h with
    plan := fun p hp => by
      obtain ⟨q, hq, rfl⟩ := Option.map_eq_some_iff.mp hp
      exact h.plan q hq }
  takes {s p} _ h _ _ hp _ := { h with
    holdings := fun r hr => by
      rcases held_of_plannedHoldings hr with hheld | ⟨e, he, rfl⟩
      · exact h.holdings r hheld
      · exact h.plan p hp e he
    baseMap := h.holdings
    plan := nofun }
  halts _ _ _ h := { h with }
  leavesHalt _ _ _ h := { h with }
  changesMode _ _ _ _ h := { h with }
  accepts _ _ _ hb h _ _ := { h with
    base := by
      rintro _ ⟨⟩
      exact h.holdings
    target := by
      rintro _ ⟨⟩ r hr
      exact h.holdings r (held_of_startingTarget hb.1.holdings hr) }
  records _ _ h := { h with base := nofun, target := nofun }
  stages _ hb h hctx hp := { h with
    base := nofun
    target := nofun
    plan := by
      rintro _ ⟨⟩
      have hplan := present_of_plan hb.1 h hctx hp
      exact hplan }
  exchange _ _ _ h _ := { h with }
  rewaves _ h _ _ := { h with }
  marks _ h _ _ := { h with }
  faultsWave _ _ _ _ _ h _ := holdsPresent_fault h _ _ _ _
  degrades _ h _ _ := by
    rw [degrade_frame]
    exact { h with }
  confirms {s w w' rs} f chains hb h hw _ _ _ _ := by
    obtain ⟨p, n, -, heq⟩ := confirmAll_apart
      { s with coil.wave := some w', coil.exchanges := exchangesSet s.coil.exchanges f chains } w.close rs
    rw [heq]
    refine List.foldlRecOn _ _ (motive := fun u : State => (apart u p n).HoldsPresent) { h with } fun u hu r _ => ?_
    rw [confirm_frame]
    exact { hu with }
  ends _ h _ := { h with }
  settles _ h := h
  stores {s store size topology} start ws hs htopology _ hb h := by
    obtain ⟨_, _, _, _, heq, hsame⟩ := Pending.storeWords_frame hs s start ws
    rw [heq]
    cases htop : topology with
    | false =>
      rw [hsame htop]
      exact { h with }
    | true =>
      obtain ⟨-, hagree⟩ := hb
      have hmode := htopology htop
      have hphase := hagree.mode.configure hmode
      obtain ⟨hslot, -, hcontext, hholdings⟩ := hagree.mode.atRest (by simp [hmode])
      obtain ⟨-, -, hbase⟩ := hagree.engine.atRest (hagree.engine.record.mpr (.inl hphase))
      exact holdsPresent_of_none hholdings hbase hcontext hslot
  takesNotices _ _ h := { h with }
  validates _ _ h := { h with }
  entersRun _ h _ _ := { h with }
  entersConfigure _ h _ _ _ _ _ := { h with }
  acknowledges _ _ h := { h with }
  movesLines _ _ _ _ h := { h with }
  resets source lost _ _ := holdsPresent_beginReset _ source lost
  recordsLinkLoss _ h _ := { h with }
  endsReset _ _ h _ := by
    unfold State.finishReset
    dsimp only
    split_ifs <;> exact { h with }

theorem step_holdsPresent {s t : State} (hstep : step s = .next t) (hc : s.Canonical) (ha : s.Agrees)
    (h : s.HoldsPresent) : t.HoldsPresent :=
  (((Pending.base_rules fun _ => True).and (rules fun _ => True)).step hstep (fun _ _ => trivial) (fun _ hu => hu) ⟨⟨hc, ha⟩, h⟩).2

end Sys2Proof.Presence
end

section
/-! Every step keeps what the engine knows in agreement with the holding table, and lets a relay leave OPEN only in a close
phase. -/

namespace Sys2Proof.Board

open Sys2Proof.Machine Sys2Proof.Laws Sys2Proof.Effects Sys2Proof.Kept

/-! ### Between two operations of one event -/

/-- The agreement with the holding table, apart from the number last completed of an engine at rest. -/
structure Holds (s : State) : Prop where
  settled : ∀ r, r ∉ s.engine.pendingOpen → r ∉ s.engine.pendingClose →
    Table.get .opened s.engine.actual r = if ownerOf s.engine.holdings r = none then .opened else .closed
  opens : ∀ r, r ∈ s.engine.pendingOpen →
    Table.get .opened s.engine.actual r ≠ .opened ∧ ownerOf s.engine.holdings r = none
  closes : ∀ r, r ∈ s.engine.pendingClose →
    Table.get .opened s.engine.actual r ≠ .closed ∧ ownerOf s.engine.holdings r ≠ none
  withinBase : ∀ t, s.engine.transition = some t → t.kind = .stepped → s.engine.pendingOpen ≠ [] →
    ∀ r, Table.get .opened s.engine.actual r ≠ .opened → ownerOf s.engine.baseMap r ≠ none
  number : ∀ t, s.engine.transition = some t → t.number = s.engine.current
  context : ∀ ctx, s.resolver.context = some ctx → ctx.baseNumber = s.engine.current ∧
    ctx.base = s.engine.holdings ∧ ctx.target = startingTarget ctx.mode ctx.base ctx.effective
  plan : ∀ p, s.gate.slot = some p → p.baseNumber.toNat ≤ s.engine.current.toNat ∧
    (p.baseNumber = s.engine.current →
      (∀ r ∈ p.opens, ownerOf s.engine.holdings r ≠ none ∧ r ∉ p.reassigned.map Prod.fst) ∧
      (∀ x ∈ p.closes, ownerOf s.engine.holdings x.1 = none) ∧
      ∀ x ∈ p.reassigned, ownerOf s.engine.holdings x.1 ≠ none)

theorem holds_of_boardAgrees {s : State} (h : s.BoardAgrees) : Holds s :=
  ⟨h.settled, h.opens, h.closes, h.withinBase, h.number, h.context, h.plan⟩

theorem Holds.boardAgrees {s : State} (h : Holds s)
    (hidle : s.engine.phase = .idle → s.engine.lastCompleted = s.engine.current) : s.BoardAgrees :=
  ⟨h.settled, h.opens, h.closes, h.withinBase, hidle, h.number, h.context, h.plan⟩

/-- The agreement with the holding table, between two events and within one. -/
def claim : Claim := ⟨State.BoardAgrees, State.BoardAgrees, Holds, Holds⟩

/-- Canonical tables, blocks in agreement, and UNKNOWN relays pending. -/
def base : Claim := Pending.base.and Pending.claim

theorem base_rules (pre : State → Prop) : Rules pre .any base := (Pending.base_rules pre).and (Pending.rules pre)

/-- The current number is not about to wrap (R122). -/
def Unwrapped (s : State) : Prop := s.engine.current ≠ 0xFFFFFFFF

/-! ### The operations -/

section

variable {s : State}

/-- With nothing pending the actual state is the holding table's. -/
theorem actual_of_settled (h : Holds s) (hopens : s.engine.pendingOpen = []) (hcloses : s.engine.pendingClose = [])
    (r : Nat) : Table.get .opened s.engine.actual r = if ownerOf s.engine.holdings r = none then .opened else .closed :=
  h.settled r (by simp [hopens]) (by simp [hcloses])

/-- A relay of the wave that is not confirmed is on the list of the wave's direction, with nothing left to open in a close
phase. -/
theorem pending_of_unconfirmed (hb : base.inv s) {w : Wave} (hw : s.coil.wave = some w) {r : Nat}
    (hr : ∃ x ∈ w.relays, x.relay = r ∧ x.status ≠ .confirmed) :
    (w.close = false ∧ s.engine.phase = .opening ∧ r ∈ s.engine.pendingOpen) ∨
      (w.close = true ∧ s.engine.phase = .closing ∧ s.engine.pendingOpen = [] ∧ r ∈ s.engine.pendingClose) := by
  obtain ⟨⟨-, hagree⟩, hpending⟩ := hb
  obtain ⟨x, hx, rfl, hstatus⟩ := hr
  have hmem := hpending.wave w hw x hx hstatus
  have hdirection := hagree.engine.direction w hw
  cases hclose : w.close with
  | true =>
    have hphase := hdirection.mp hclose
    exact .inr ⟨rfl, hphase, hagree.engine.breakBeforeMake hphase, by simpa [hclose] using hmem⟩
  | false =>
    refine .inl ⟨rfl, ?_, by simpa [hclose] using hmem⟩
    exact (Agreement.phase_of_wave hagree hw).resolve_right fun hphase => by simp [hdirection.mpr hphase] at hclose

/-- A transition of the next number: no resolution is in flight, and a plan staged before is not of its number. -/
theorem holds_started {u : State} (hpre : Unwrapped s) (h : s.BoardAgrees) (hcurrent : u.engine.current = s.engine.current + 1)
    (hnumber : ∀ t, u.engine.transition = some t → t.number = u.engine.current ∧ t.kind ≠ .stepped)
    (hcontext : u.resolver.context = none) (hgate : u.gate = s.gate)
    (hsettled : ∀ r, r ∉ u.engine.pendingOpen → r ∉ u.engine.pendingClose →
      Table.get .opened u.engine.actual r = if ownerOf u.engine.holdings r = none then .opened else .closed)
    (hopens : ∀ r, r ∈ u.engine.pendingOpen →
      Table.get .opened u.engine.actual r ≠ .opened ∧ ownerOf u.engine.holdings r = none)
    (hcloses : ∀ r, r ∈ u.engine.pendingClose →
      Table.get .opened u.engine.actual r ≠ .closed ∧ ownerOf u.engine.holdings r ≠ none) : Holds u where
  settled := hsettled
  opens := hopens
  closes := hcloses
  withinBase t ht hkind := absurd hkind (hnumber t ht).2
  number t ht := (hnumber t ht).1
  context ctx hctx := by simp [hcontext] at hctx
  plan p hp := by
    have hle := (h.plan p (hgate ▸ hp)).1
    have hnext : (s.engine.current + 1).toNat = s.engine.current.toNat + 1 := by
      unfold Unwrapped at hpre
      bv_omega
    rw [hcurrent]
    exact ⟨by omega, fun heq => by rw [heq] at hle; omega⟩

theorem holds_rolledBack {u : State} (hc : s.Canonical) (hpre : Unwrapped s) (h : s.BoardAgrees)
    (hcurrent : u.engine.current = s.engine.current + 1)
    (hnumber : ∀ t, u.engine.transition = some t → t.number = u.engine.current ∧ t.kind ≠ .stepped)
    (hcontext : u.resolver.context = none) (hgate : u.gate = s.gate) (hactual : u.engine.actual = s.engine.actual)
    (hholdings : u.engine.holdings = s.engine.baseMap) (hopens : u.engine.pendingOpen = s.rollbackOpens)
    (hcloses : u.engine.pendingClose = s.rollbackCloses) : Holds u := by
  refine holds_started hpre h hcurrent hnumber hcontext hgate (fun r ho hcl => ?_) (fun r ho => ?_) fun r hcl => ?_
  all_goals rw [hactual, hholdings]
  · rw [hopens, Pending.mem_rollbackOpens hc] at ho
    rw [hcloses, Pending.mem_rollbackCloses hc] at hcl
    split_ifs with hbase
    · exact not_not.mp fun hne => ho ⟨hne, hbase⟩
    · exact not_not.mp fun hne => hcl ⟨hne, hbase⟩
  · rwa [hopens, Pending.mem_rollbackOpens hc] at ho
  · rwa [hcloses, Pending.mem_rollbackCloses hc] at hcl

theorem holds_safeOpened {u : State} (hc : s.Canonical) (hpre : Unwrapped s) (h : s.BoardAgrees)
    (hcurrent : u.engine.current = s.engine.current + 1)
    (hnumber : ∀ t, u.engine.transition = some t → t.number = u.engine.current ∧ t.kind ≠ .stepped)
    (hcontext : u.resolver.context = none) (hgate : u.gate = s.gate) (hactual : u.engine.actual = s.engine.actual)
    (hholdings : u.engine.holdings = []) (hopens : u.engine.pendingOpen = s.safeOpens)
    (hcloses : u.engine.pendingClose = []) : Holds u := by
  refine holds_started hpre h hcurrent hnumber hcontext hgate (fun r ho _ => ?_) (fun r ho => ?_) fun r hcl => ?_
  · rw [hopens, Pending.mem_safeOpens hc, not_not] at ho
    rw [hactual, hholdings]
    exact ho
  · rw [hopens, Pending.mem_safeOpens hc] at ho
    rw [hactual, hholdings]
    exact ⟨ho, rfl⟩
  · rw [hcloses] at hcl
    cases hcl

/-- A relay that has an owner, or that an assignment lists, has one after it. -/
theorem owned_of_assigned {l : List (Nat × Owner)} {h : Holdings} {r : Nat}
    (hr : ownerOf h r ≠ none ∨ ∃ e ∈ l, e.1 = r) : ownerOf (assignOwners h l) r ≠ none := by
  induction l generalizing h with
  | nil => exact hr.resolve_right (by simp)
  | cons x l ih =>
    refine ih (h := h.put none x.1 (some x.2)) ?_
    rw [Plans.ownerOf_put]
    rcases hr with hheld | ⟨e, he, rfl⟩
    · exact .inl (by split_ifs <;> simp [hheld])
    · rcases List.mem_cons.mp he with rfl | he
      · exact .inl (by simp)
      · exact .inr ⟨e, he, rfl⟩

/-- The start of a plan that is not stale carries the holding table of the engine at rest to the plan's. -/
theorem holds_planTaken {p : Plan} (hb : base.inv s) (h : s.BoardAgrees) (hphase : s.engine.phase = .idle)
    (hcontext : s.resolver.context = none) (hp : s.gate.slot = some p) (hstale : s.isStale p = false) :
    Holds (planTaken (unlatched s) p) := by
  obtain ⟨⟨-, hagree⟩, -⟩ := hb
  obtain ⟨hnoOpens, hnoCloses, -⟩ := hagree.engine.atRest (hagree.engine.record.mpr (.inl hphase))
  have hactual := actual_of_settled (holds_of_boardAgrees h) hnoOpens hnoCloses
  have hcurrent : p.baseNumber = s.engine.current := by
    have hlast : p.baseNumber = s.engine.lastCompleted := by
      simp only [State.isStale, Bool.or_eq_false_iff, decide_eq_false_iff_not, ne_eq, not_not] at hstale
      exact hstale.1
    rw [hlast, h.idle hphase]
  obtain ⟨hopens, hcloses, hreassigned⟩ := (h.plan p hp).2 hcurrent
  have hassigned : ∀ e ∈ p.closes ++ p.reassigned, e.1 ∉ p.opens := by
    intro e he hopen
    obtain ⟨hheld, hnot⟩ := hopens e.1 hopen
    rcases List.mem_append.mp he with hc | hr
    · exact hheld (hcloses e hc)
    · exact hnot (List.mem_map_of_mem hr)
  have hplanned : ∀ r, ownerOf (plannedHoldings s.engine.holdings p) r = none ↔
      r ∈ p.opens ∨ (ownerOf s.engine.holdings r = none ∧ r ∉ p.closes.map Prod.fst) := by
    intro r
    rw [plannedHoldings, Plans.assignOwners_append]
    by_cases hlisted : ∃ e ∈ p.closes ++ p.reassigned, e.1 = r
    · refine iff_of_false (owned_of_assigned (.inr hlisted)) ?_
      obtain ⟨e, he, rfl⟩ := hlisted
      rintro (hopen | ⟨hnone, hnot⟩)
      · exact hassigned e he hopen
      · rcases List.mem_append.mp he with hc | hr
        · exact hnot (List.mem_map_of_mem hc)
        · exact hreassigned e hr hnone
    · rw [assignOwners_get_of_not_mem _ _ _ fun e he heq => hlisted ⟨e, he, heq⟩, dropOwners_get]
      have hnot : r ∉ p.closes.map Prod.fst := by
        intro hr
        obtain ⟨e, he, heq⟩ := List.mem_map.mp hr
        exact hlisted ⟨e, List.mem_append_left _ he, heq⟩
      by_cases hopen : r ∈ p.opens <;> simp [hopen, hnot]
  exact {
    settled := fun r ho hc => by
      have hiff := hplanned r
      change Table.get .opened s.engine.actual r = if ownerOf (plannedHoldings s.engine.holdings p) r = none then _ else _
      rw [hactual r]
      exact if_congr (by rw [hiff]; exact ⟨fun hnone => .inr ⟨hnone, hc⟩, fun hor => (hor.resolve_left ho).1⟩) rfl rfl
    opens := fun r hr => by
      refine ⟨?_, (hplanned r).mpr (.inl hr)⟩
      change Table.get .opened s.engine.actual r ≠ .opened
      rw [hactual r, if_neg (hopens r hr).1]
      decide
    closes := fun r hr => by
      obtain ⟨e, he, rfl⟩ := List.mem_map.mp hr
      refine ⟨?_, fun hnone => ?_⟩
      · change Table.get .opened s.engine.actual e.1 ≠ .closed
        rw [hactual e.1, if_pos (hcloses e he)]
        decide
      · exact ((hplanned e.1).mp hnone).elim (hassigned e (List.mem_append_left _ he)) fun hor => hor.2 hr
    withinBase := fun t _ _ _ r hr hnone => by
      refine hr ?_
      change Table.get .opened s.engine.actual r = .opened
      rw [hactual r, if_pos (show ownerOf s.engine.holdings r = none from hnone)]
    number := by
      rintro _ ⟨⟩
      rfl
    context := fun ctx hctx => absurd (hcontext.symm.trans hctx) (by simp)
    plan := nofun }

theorem holds_fault (h : Holds s) (k : FaultKind) (p : FaultPhase) (ch : Option (Fin 8)) (rs : List Nat) :
    Holds (s.fault k p ch rs) := by
  unfold State.fault
  split
  · exact h
  · exact { h with }

theorem idle_fault (h : s.engine.phase = .idle → s.engine.lastCompleted = s.engine.current) (k : FaultKind)
    (p : FaultPhase) (ch : Option (Fin 8)) (rs : List Nat) :
    (s.fault k p ch rs).engine.phase = .idle →
      (s.fault k p ch rs).engine.lastCompleted = (s.fault k p ch rs).engine.current := by
  unfold State.fault
  split <;> exact h

/-- An empty board agrees with any record of numbers. -/
theorem boardAgrees_of_empty (hactual : s.engine.actual = []) (hholdings : s.engine.holdings = [])
    (hopens : s.engine.pendingOpen = []) (hcloses : s.engine.pendingClose = []) (htransition : s.engine.transition = none)
    (hcontext : s.resolver.context = none) (hslot : s.gate.slot = none)
    (hidle : s.engine.phase = .idle → s.engine.lastCompleted = s.engine.current) : s.BoardAgrees where
  settled r _ _ := by rw [hactual, hholdings]; rfl
  opens r hr := by simp [hopens] at hr
  closes r hr := by simp [hcloses] at hr
  withinBase t ht := by simp [htransition] at ht
  idle := hidle
  number t ht := by simp [htransition] at ht
  context ctx hctx := by simp [hcontext] at hctx
  plan p hp := by simp [hslot] at hp

theorem boardAgrees_lockOut : s.lockOut.BoardAgrees := by
  have hlocked := lockOut_locksOutTo s
  have hcontext : s.lockOut.resolver.context = none := by
    cases hctx : s.resolver.context with
    | none => rw [hlocked.idleResolver hctx, hctx]
    | some ctx => rw [hlocked.cancels ctx hctx]
  rw [hlocked.rest]
  exact boardAgrees_of_empty rfl rfl rfl rfl rfl hcontext rfl nofun

theorem boardAgrees_beginReset (source : ResetSource) (lost : Bool) : (s.beginReset source lost).BoardAgrees := by
  unfold State.beginReset
  dsimp only
  split_ifs <;> exact boardAgrees_of_empty rfl rfl rfl rfl rfl rfl rfl fun _ => rfl

/-- The confirmation of relays of a wave settles them as the holding table has them. -/
theorem boardAgrees_confirmed {u v : State} {w : Wave} {rs : List Nat} (hc : Confirmed u v w.close rs) (hb : base.inv s)
    (h : s.BoardAgrees) (hw : s.coil.wave = some w) (hrs : Unconfirmed w rs) (hengine : u.engine = s.engine)
    (hresolver : u.resolver = s.resolver) (hgate : u.gate = s.gate) : v.BoardAgrees := by
  have hpend := fun r (hr : r ∈ rs) => pending_of_unconfirmed hb hw (hrs.status r hr)
  have hopens : ∀ r, r ∈ v.engine.pendingOpen ↔ r ∈ s.engine.pendingOpen ∧ r ∉ rs := by simp [hc.opens, hengine]
  have hcloses : ∀ r, r ∈ v.engine.pendingClose ↔ r ∈ s.engine.pendingClose ∧ r ∉ rs := by simp [hc.closes, hengine]
  have hactual := hc.actual
  rw [hengine] at hactual
  have hrest : v.engine = { s.engine with
      actual := v.engine.actual, pendingOpen := v.engine.pendingOpen, pendingClose := v.engine.pendingClose } := by
    rw [← hengine]
    exact congrArg State.engine hc.rest
  have hholdings : v.engine.holdings = s.engine.holdings := by rw [hrest]
  have hslot : v.gate = s.gate := (congrArg State.gate hc.rest).trans hgate
  have hcontext : v.resolver = s.resolver := (congrArg State.resolver hc.rest).trans hresolver
  exact {
    settled := fun r ho hcl => by
      rw [hactual r, hholdings]
      by_cases hr : r ∈ rs
      · rcases hpend r hr with ⟨hclose, -, hmem⟩ | ⟨hclose, -, -, hmem⟩
        · simp [hr, hclose, (h.opens r hmem).2]
        · simp [hr, hclose, (h.closes r hmem).2]
      · rw [if_neg hr]
        exact h.settled r (fun hm => ho ((hopens r).mpr ⟨hm, hr⟩)) fun hm => hcl ((hcloses r).mpr ⟨hm, hr⟩)
    opens := fun r hr => by
      obtain ⟨hmem, hnot⟩ := (hopens r).mp hr
      rw [hactual r, if_neg hnot, hholdings]
      exact h.opens r hmem
    closes := fun r hr => by
      obtain ⟨hmem, hnot⟩ := (hcloses r).mp hr
      rw [hactual r, if_neg hnot, hholdings]
      exact h.closes r hmem
    withinBase := fun t ht hkind hne r hopen => by
      have hne' : s.engine.pendingOpen ≠ [] := by
        obtain ⟨x, hx⟩ := List.exists_mem_of_ne_nil _ hne
        exact List.ne_nil_of_mem ((hopens x).mp hx).1
      rw [hrest] at ht ⊢
      refine h.withinBase t ht hkind hne' r ?_
      rw [hactual r] at hopen
      by_cases hr : r ∈ rs
      · rcases hpend r hr with ⟨hclose, -, -⟩ | ⟨-, -, hnil, -⟩
        · simp [hr, hclose] at hopen
        · exact absurd hnil hne'
      · rwa [if_neg hr] at hopen
    idle := by rw [hrest]; exact h.idle
    number := by rw [hrest]; exact h.number
    context := by rw [hrest, hcontext]; exact h.context
    plan := by rw [hrest, hslot]; exact h.plan }

/-- A plan of a resolution is one from the present holding table. -/
theorem plan_agrees {ctx : Resolution} {p : Plan} (hcanon : s.Canonical) (h : s.BoardAgrees)
    (hctx : s.resolver.context = some ctx) (hp : s.resolve ctx = .ok p) :
    p.baseNumber = s.engine.current ∧
      (∀ r ∈ p.opens, ownerOf s.engine.holdings r ≠ none ∧ r ∉ p.reassigned.map Prod.fst) ∧
      (∀ x ∈ p.closes, ownerOf s.engine.holdings x.1 = none) ∧
      ∀ x ∈ p.reassigned, ownerOf s.engine.holdings x.1 ≠ none := by
  obtain ⟨hnumber, hbase, -⟩ := h.context ctx hctx
  obtain ⟨-, target, hbuild, -, rfl⟩ := (Targets.resolve_eq_ok_iff s ctx p).mp hp
  have hwf := hcanon.base ctx hctx
  have htarget := Targets.wf_buildTarget hbuild (hcanon.target ctx hctx)
  obtain ⟨hopens, hcloses, hreassigned, -⟩ := Delta.deltaSortsEveryRelay ctx.base target hwf htarget
  rw [← hbase]
  refine ⟨hnumber, fun r hr => ?_, fun x hx => ((hcloses x.1 x.2).mp hx).1, fun x hx => ?_⟩
  · obtain ⟨hheld, hnone⟩ := (hopens r).mp hr
    refine ⟨hheld, fun hmem => ?_⟩
    obtain ⟨x, hx, rfl⟩ := List.mem_map.mp hmem
    simp [((hreassigned x.1 x.2).mp hx).1] at hnone
  · obtain ⟨-, y, hy, -⟩ := (hreassigned x.1 x.2).mp hx
    simp [hy]

end

theorem rules : Rules Unwrapped base claim where
  beside hb _ h := by
    obtain ⟨p, n, q, rfl⟩ := hb
    exact { h with }
  raise _ _ h := { h with }
  guards _ h _ _ := Holds.boardAgrees (by exact { h with }) nofun
  unguarded _ h _ := h
  rests {s} hb h hnone := by
    obtain ⟨t, ht, -⟩ := hb.1.2.quiet
    simp [hnone] at ht
  opens _ h _ _ := Holds.boardAgrees (by exact { h with }) nofun
  closes _ h _ _ _ := Holds.boardAgrees (by exact { h with }) nofun
  completes {s t} _ h ht hopens _ :=
    Holds.boardAgrees (by exact { h with withinBase := nofun, number := nofun }) fun _ => h.number t ht
  suspends _ _ _ h := Holds.boardAgrees (by exact { h with }) nofun
  locksOut _ _ := boardAgrees_lockOut
  guarded _ h _ := holds_of_boardAgrees h
  heats {s t} _ h ht := { h with
    withinBase := by
      rintro _ ⟨⟩
      exact h.withinBase t ht
    number := by
      rintro _ ⟨⟩
      exact h.number t ht }
  faults _ _ _ _ _ h := holds_fault h _ _ _ _
  resumes {s t} _ h _ ht := { holds_of_boardAgrees h with
    withinBase := by
      rintro _ ⟨⟩
      exact h.withinBase t ht
    number := by
      rintro _ ⟨⟩
      exact h.number t ht }
  rollsBack hpre hb h _ _ _ :=
    ⟨fun hcontext => holds_rolledBack hb.1.1 hpre h rfl (by rintro _ ⟨⟩; exact ⟨rfl, nofun⟩) hcontext rfl rfl rfl rfl rfl,
      fun _ => holds_rolledBack hb.1.1 hpre h rfl (by rintro _ ⟨⟩; exact ⟨rfl, nofun⟩) rfl rfl rfl rfl rfl rfl⟩
  safeOpens hpre hb h _ _ :=
    ⟨fun hcontext => holds_safeOpened hb.1.1 hpre h rfl (by rintro _ ⟨⟩; exact ⟨rfl, nofun⟩) hcontext rfl rfl rfl rfl rfl,
      fun _ => holds_safeOpened hb.1.1 hpre h rfl (by rintro _ ⟨⟩; exact ⟨rfl, nofun⟩) rfl rfl rfl rfl rfl rfl⟩
  notesAbort _ h _ := { h with }
  empties _ h := { h with plan := nofun }
  latches _ h _ := { h with
    plan := fun p hp => by
      obtain ⟨q, hq, rfl⟩ := Option.map_eq_some_iff.mp hp
      exact h.plan q hq }
  takes hb h hphase hcontext hp hstale := holds_planTaken hb h hphase hcontext hp hstale
  halts _ _ _ h := { h with }
  leavesHalt _ _ _ h := { h with }
  changesMode _ _ _ _ h := { h with }
  accepts {s} _ _ _ _ h _ _ := { h with
    context := by
      rintro _ ⟨⟩
      refine ⟨?_, rfl, rfl⟩
      change (if s.engine.phase = .idle then s.engine.lastCompleted else s.engine.current) = s.engine.current
      split_ifs with hphase
      · exact h.idle hphase
      · rfl }
  records _ _ h := { h with context := nofun }
  stages {s ctx p} _ hb h hctx hp := { h with
    context := nofun
    plan := by
      rintro _ ⟨⟩
      obtain ⟨hnumber, hplan⟩ := plan_agrees hb.1.1 h hctx hp
      exact ⟨le_of_eq (congrArg BitVec.toNat hnumber), fun _ => hplan⟩ }
  exchange _ _ _ h _ := { h with }
  rewaves _ h _ _ := { h with }
  marks {s w rs} hb h hw hrs := by
    have hpend := fun r (hr : r ∈ rs) => pending_of_unconfirmed hb hw (hrs.status r hr)
    exact { h with
      settled := fun r ho hc => by
        rw [markUnknown_get, if_neg]
        · exact h.settled r ho hc
        · intro hr
          rcases hpend r hr with ⟨-, -, hmem⟩ | ⟨-, -, -, hmem⟩
          · exact ho hmem
          · exact hc hmem
      opens := fun r hr => by
        obtain ⟨hne, hnone⟩ := h.opens r hr
        refine ⟨?_, hnone⟩
        rw [markUnknown_get]
        split_ifs
        · decide
        · exact hne
      closes := fun r hr => by
        obtain ⟨hne, hheld⟩ := h.closes r hr
        refine ⟨?_, hheld⟩
        rw [markUnknown_get]
        split_ifs
        · decide
        · exact hne
      withinBase := fun t ht hkind hne r hr => by
        refine h.withinBase t ht hkind hne r ?_
        rw [markUnknown_get] at hr
        split_ifs at hr with hmem
        · rcases hpend r hmem with ⟨-, -, hopen⟩ | ⟨-, -, hnil, -⟩
          · exact (h.opens r hopen).1
          · exact absurd hnil hne
        · exact hr }
  faultsWave _ _ _ _ _ h _ := (holds_fault (holds_of_boardAgrees h) _ _ _ _).boardAgrees (idle_fault h.idle _ _ _ _)
  degrades _ h _ _ := by
    rw [degrade_frame]
    exact { h with }
  confirms {s w w' rs} f chains hb h hw _ hrs _ _ := by
    have hasc := hb.2.waveOrder w hw
    obtain ⟨u, ⟨p, n, q, hu⟩, hc⟩ := Pending.confirmAll_confirmed
      { s with coil.wave := some w', coil.exchanges := exchangesSet s.coil.exchanges f chains } w.close
      (Pending.nodup_of_unconfirmed hrs hasc)
    have hboard := boardAgrees_confirmed hc hb h hw hrs rfl rfl rfl
    rw [hu]
    exact { hboard with }
  ends _ h _ := holds_of_boardAgrees (by exact { h with })
  settles _ h := h
  stores start ws hs _ _ _ h := by
    obtain ⟨_, _, _, _, heq, -⟩ := Pending.storeWords_frame hs _ start ws
    rw [heq]
    exact { h with }
  takesNotices _ _ h := { h with }
  validates _ _ h := { h with }
  entersRun _ h _ _ := { h with }
  entersConfigure _ h _ _ _ _ _ := { h with }
  acknowledges _ _ h := { h with }
  movesLines _ _ _ _ h := { h with }
  resets source lost _ _ := boardAgrees_beginReset source lost
  recordsLinkLoss _ h _ := { h with }
  endsReset _ _ h _ := by
    unfold State.finishReset
    dsimp only
    split_ifs <;> exact { h with }

/-! ### The relays that leave OPEN (R98, R101) -/

/-- No relay that is OPEN in `s` is not OPEN in `u`, but for those in `x`. -/
def OpensOnly (s : State) (x : Nat → Prop) (u : State) : Prop :=
  ∀ r, Table.get .opened s.engine.actual r = .opened → Table.get .opened u.engine.actual r ≠ .opened → x r

/-- Every relay of the wave of `u` that is not confirmed is in `x`. -/
def WaveIn (x : Nat → Prop) (u : State) : Prop :=
  ∀ w, u.coil.wave = some w → ∀ y ∈ w.relays, y.status ≠ .confirmed → x y.relay

/-- While a wave goes on only its relays that are not confirmed leave OPEN. -/
def opening (s : State) (x : Nat → Prop) : Claim :=
  ⟨OpensOnly s x, fun u => OpensOnly s x u ∧ WaveIn x u, OpensOnly s x, OpensOnly s x⟩

section

variable {s : State} {x : Nat → Prop}

theorem opensOnly_of_empty {u : State} (hu : u.engine.actual = []) : OpensOnly s x u :=
  fun r _ hne => absurd (by rw [hu]; rfl) hne

theorem opensOnly_lockOut (u : State) : OpensOnly s x u.lockOut :=
  opensOnly_of_empty (by rw [(lockOut_locksOutTo u).rest])

theorem opensOnly_of_actual {u v : State} (h : OpensOnly s x u) (hactual : v.engine.actual = u.engine.actual) :
    OpensOnly s x v := by
  unfold OpensOnly
  rw [hactual]
  exact h

theorem actual_fault (u : State) (k : FaultKind) (p : FaultPhase) (ch : Option (Fin 8)) (rs : List Nat) :
    (u.fault k p ch rs).engine.actual = u.engine.actual := by
  unfold State.fault
  split <;> rfl

theorem opening_rules (pre : State → Prop) : Rules pre .any (opening s x) where
  beside hb _ h := by
    obtain ⟨p, n, q, rfl⟩ := hb
    exact h
  raise _ _ h := h
  guards _ h _ _ := h
  unguarded _ h _ := h
  rests _ h _ := h
  opens _ h _ _ := h
  closes _ h _ _ _ := h
  completes _ h _ _ _ := h
  suspends _ _ _ h := h
  locksOut _ _ := opensOnly_lockOut _
  guarded _ h _ := h
  heats _ h _ := h
  faults _ _ _ _ _ h := opensOnly_of_actual h (actual_fault ..)
  resumes _ h _ _ := h
  rollsBack _ _ h _ _ _ := ⟨fun _ => h, fun _ => h⟩
  safeOpens _ _ h _ _ := ⟨fun _ => h, fun _ => h⟩
  notesAbort _ h _ := h
  empties _ h := h
  latches _ h _ := h
  takes _ h _ _ _ _ := h
  halts _ _ _ h := h
  leavesHalt _ _ _ h := h
  changesMode _ _ _ _ h := h
  accepts _ _ _ _ h _ _ := h
  records _ _ h := h
  stages _ _ h _ _ := h
  exchange _ _ _ h _ := h
  rewaves {u w w'} _ h hw hrefines := ⟨h.1, by
    rintro _ ⟨⟩ y hy hstatus
    obtain ⟨z, hz, hrelay, hstatus'⟩ := hrefines.unconfirmed y hy hstatus
    exact hrelay ▸ h.2 w hw z hz hstatus'⟩
  marks {u w rs} _ h hw hrs := ⟨fun r hr hne => by
    rw [markUnknown_get] at hne
    split_ifs at hne with hmem
    · obtain ⟨y, hy, rfl, hstatus⟩ := hrs.status r hmem
      exact h.2 w hw y hy hstatus
    · exact h.1 r hr hne, h.2⟩
  faultsWave _ _ _ _ _ h _ := by
    refine ⟨opensOnly_of_actual h.1 (actual_fault ..), ?_⟩
    unfold WaveIn
    rw [Rules.faulted_wave]
    exact h.2
  degrades _ h _ _ := by
    rw [degrade_frame]
    exact h
  confirms {u w w' rs} f chains _ h hw hrefines hrs _ _ := by
    obtain ⟨p, n, -, heq⟩ := confirmAll_apart
      { u with coil.wave := some w', coil.exchanges := exchangesSet u.coil.exchanges f chains } w.close rs
    refine ⟨?_, ?_⟩
    · rw [heq]
      refine List.foldlRecOn (motive := fun v : State => OpensOnly s x v) _ _ h.1 fun v hv r hr q hq hne => ?_
      rw [confirm_frame] at hne
      change Table.get Contact.opened (Table.put _ _ _ _) q ≠ .opened at hne
      rw [table_get_put] at hne
      split_ifs at hne with hqr
      · subst hqr
        obtain ⟨y, hy, hrelay, hstatus⟩ := hrs.status q ((confirmOrder_perm _ _ _).subset hr)
        exact hrelay ▸ h.2 w hw y hy hstatus
      · exact absurd rfl hne
      · exact hv q hq hne
    · unfold WaveIn
      rw [Rules.confirmAll_coil]
      rintro _ ⟨⟩ y hy hstatus
      obtain ⟨z, hz, hrelay, hstatus'⟩ := hrefines.unconfirmed y hy hstatus
      exact hrelay ▸ h.2 w hw z hz hstatus'
  ends _ h _ := h.1
  settles _ h := h.1
  stores start ws hs _ _ _ h := by
    obtain ⟨_, _, _, _, heq, -⟩ := Pending.storeWords_frame hs _ start ws
    rw [heq]
    exact h
  takesNotices _ _ h := h
  validates _ _ h := h
  entersRun _ h _ _ := h
  entersConfigure _ h _ _ _ _ _ := h
  acknowledges _ _ h := h
  movesLines _ _ _ _ h := h
  resets source lost _ _ := by
    unfold State.beginReset
    dsimp only
    split_ifs <;> exact opensOnly_of_empty rfl
  recordsLinkLoss _ h _ := h
  endsReset _ _ h _ := by
    unfold State.finishReset
    dsimp only
    split_ifs <;> exact h

end

/-- The relays of the wave in progress that are not confirmed. -/
def Waiting (s : State) (r : Nat) : Prop :=
  ∃ w, s.coil.wave = some w ∧ ∃ y ∈ w.relays, y.relay = r ∧ y.status ≠ .confirmed

theorem step_opensOnly {s t : State} (hstep : step s = .next t) : OpensOnly s (Waiting s) t := by
  obtain ⟨s', u, hs, hu, ht⟩ := leads_step hstep
  have R := opening_rules (s := s) (x := Waiting s) fun _ => True
  have hstart : OpensOnly s (Waiting s) s' := R.beside hs trivial fun r hr hne => absurd hr hne
  refine R.beside ht trivial (R.toBlockRules.effect hu trivial hstart fun hchain => R.chainEffect hchain ⟨hstart, ?_⟩)
  obtain ⟨p, n, q, rfl⟩ := hs
  exact fun w hw y hy hstatus => ⟨w, hw, y, hy, rfl, hstatus⟩

theorem step_boardAgrees {s t : State} (hstep : step s = .next t) (hb : base.inv s) (hpre : Unwrapped s)
    (h : s.BoardAgrees) : t.BoardAgrees := by
  refine (((base_rules Unwrapped).and rules).step hstep (fun u hu => ?_) (fun _ hu => hu) ⟨hb, h⟩).2
  obtain ⟨p, n, q, rfl⟩ := hu
  exact hpre

/-- Settles O60: the agreement is kept rule by rule, and only the waiting relays of a close wave leave OPEN. -/
theorem stepsKeepTheBoardAsHeld : Obligations.StepsKeepTheBoardAsHeld := by
  refine ⟨fun s t hcanon hagree hpending hpre h hstep => ?_, fun s hagree h => ⟨fun hphase r => ?_, fun hopens r hr => ?_⟩⟩
  · have hb : base.inv s := ⟨⟨hcanon, hagree⟩, hpending⟩
    refine ⟨step_boardAgrees hstep hb hpre h, fun r hopen hne => ?_⟩
    obtain ⟨w, hw, hwaiting⟩ := step_opensOnly hstep r hopen hne
    rcases pending_of_unconfirmed hb hw hwaiting with ⟨-, -, hmem⟩ | ⟨-, hphase, hnil, hmem⟩
    · exact absurd hopen (h.opens r hmem).1
    · exact ⟨hphase, hnil, hmem, (h.closes r hmem).2⟩
  · obtain ⟨hnoOpens, hnoCloses, -⟩ := hagree.engine.atRest (hagree.engine.record.mpr (.inl hphase))
    exact actual_of_settled (holds_of_boardAgrees h) hnoOpens hnoCloses r
  · by_cases hmem : r ∈ s.engine.pendingClose
    · exact (h.closes r hmem).2
    · intro hnone
      exact hr ((h.settled r (by simp [hopens]) hmem).trans (by simp [hnone]))

end Sys2Proof.Board
end

section
/-! Every step keeps the wave in agreement with its chains (R84, R86 to R92). -/

namespace Sys2Proof.WaveChains

open Sys2Proof.Machine Sys2Proof.Laws Sys2Proof.Effects Sys2Proof.Kept

/-! ### A relay and its chain -/

/-- The status that a relay may have by the exchange state of its chain, the stage of the wave and its failure. -/
inductive StatusFits (failed : Bool) : RelayStatus → Exchange → WaveStage → Prop
  | writing (n : Nat) (st : AttemptStage) : StatusFits failed .writing (.writing n st) .writing
  | latched (stage : WaveStage) : stage = .writing ∨ stage = .timedWait → StatusFits failed .latched .latched stage
  | sensing (n : Nat) (st : AttemptStage) (d : Nat) (r : Bool) : StatusFits failed .sensing (.sensing n st) (.sensing d r)
  | interval (d : Nat) (r : Bool) : StatusFits failed .sensing .senseInterval (.sensing d r)
  | confirmed (x : Exchange) (d : Nat) (r : Bool) : x.isWriting = false → x ≠ .latched →
      StatusFits failed .confirmed x (.sensing d r)
  | chainFailed (stage : WaveStage) : failed = true → StatusFits failed .chainFailed .failed stage

/-- Every relay of a wave fits its chain, and a chain without one is IDLE. -/
structure Fits (w : Wave) (e : Nat → Exchange) : Prop where
  relays : ∀ x ∈ w.relays, StatusFits w.failed x.status (e (x.relay / 128)) w.stage
  untouched : ∀ c, (∀ x ∈ w.relays, x.relay / 128 ≠ c) → e c = .idle

/-- The stage of a wave has a relay that it waits for. -/
structure Waits (w : Wave) : Prop where
  writing : w.stage = .writing → ∃ x ∈ w.relays, x.status = .writing
  timedWait : w.stage = .timedWait → ∃ x ∈ w.relays, x.status = .latched
  sensing : ∀ d reached, w.stage = .sensing d reached → LargestTimeout w.relays d

theorem isWriting_iff (x : Exchange) : x.isWriting = true ↔ ∃ n st, x = .writing n st := by
  cases x <;> simp [Exchange.isWriting]

theorem fits_of_waveAgrees {s : State} (h : s.WaveAgrees) {w : Wave} (hw : s.coil.wave = some w) :
    Fits w s.exchange := by
  refine ⟨fun x hx => ?_, h.untouched w hw⟩
  obtain ⟨hwriting, hwritingStage⟩ := h.writing w hw x hx
  obtain ⟨hlatched, hlatchedStage⟩ := h.latched w hw x hx
  have hsensing := h.sensing w hw x hx
  have hconfirmed := h.confirmed w hw x hx
  obtain ⟨hcontact, hfailed⟩ := h.failed w hw x hx
  cases hstatus : x.status with
  | writing =>
    obtain ⟨n, st, hx⟩ := hwriting.mp hstatus
    rw [hx, hwritingStage hstatus]
    exact .writing n st
  | latched =>
    rw [hlatched.mp hstatus]
    exact .latched _ (hlatchedStage hstatus)
  | sensing =>
    obtain ⟨hx, d, r, hstage⟩ := hsensing hstatus
    rw [hstage]
    rcases hx with hx | ⟨n, st, hx⟩ <;> rw [hx]
    · exact .interval d r
    · exact .sensing n st d r
  | confirmed =>
    obtain ⟨d, r, hstage⟩ := hconfirmed hstatus
    rw [hstage]
    refine .confirmed _ d r (Bool.eq_false_of_not_eq_true fun hw => ?_) fun hl => ?_
    · simp [hstatus] at hwriting
      obtain ⟨n, st, hx⟩ := (isWriting_iff _).mp hw
      exact hwriting n st hx
    · simp [hlatched.mpr hl] at hstatus
  | chainFailed =>
    obtain ⟨hx, hf⟩ := hfailed hstatus
    rw [hx]
    exact .chainFailed _ hf
  | contactFailed => exact absurd hstatus hcontact

theorem waveAgrees_of_fits {s : State} (h : ∀ w, s.coil.wave = some w → Fits w s.exchange ∧ Waits w) : s.WaveAgrees where
  writing w hw x hx := by
    have hfits := (h w hw).1.relays x hx
    generalize x.status = status, s.exchange (x.relay / 128) = e, w.stage = stage at hfits ⊢
    cases hfits with
    | confirmed _ _ _ hwriting _ =>
      refine ⟨iff_of_false nofun fun hx => ?_, nofun⟩
      rw [(isWriting_iff e).mpr hx] at hwriting
      cases hwriting
    | _ => simp
  latched w hw x hx := by
    have hfits := (h w hw).1.relays x hx
    generalize x.status = status, s.exchange (x.relay / 128) = e, w.stage = stage at hfits ⊢
    cases hfits with
    | latched _ hstage => exact ⟨by simp, fun _ => hstage⟩
    | confirmed _ _ _ _ hlatched => exact ⟨iff_of_false nofun hlatched, nofun⟩
    | _ => simp
  sensing w hw x hx hstatus := by
    have hfits := (h w hw).1.relays x hx
    rw [hstatus] at hfits
    generalize s.exchange (x.relay / 128) = e, w.stage = stage at hfits ⊢
    cases hfits with
    | sensing n st d r => exact ⟨.inr ⟨n, st, rfl⟩, d, r, rfl⟩
    | interval d r => exact ⟨.inl rfl, d, r, rfl⟩
  confirmed w hw x hx hstatus := by
    have hfits := (h w hw).1.relays x hx
    rw [hstatus] at hfits
    generalize s.exchange (x.relay / 128) = e, w.stage = stage at hfits ⊢
    cases hfits with
    | confirmed _ d r => exact ⟨d, r, rfl⟩
  failed w hw x hx := by
    have hfits := (h w hw).1.relays x hx
    generalize x.status = status, s.exchange (x.relay / 128) = e, w.stage = stage at hfits ⊢
    cases hfits with
    | chainFailed _ hf => exact ⟨nofun, fun _ => ⟨rfl, hf⟩⟩
    | _ => exact ⟨nofun, nofun⟩
  waits w hw := ⟨(h w hw).2.writing, (h w hw).2.timedWait, (h w hw).2.sensing⟩
  untouched w hw := (h w hw).1.untouched

theorem waits_of_waveAgrees {s : State} (h : s.WaveAgrees) {w : Wave} (hw : s.coil.wave = some w) : Waits w :=
  ⟨(h.waits w hw).1, (h.waits w hw).2.1, (h.waits w hw).2.2⟩

section

variable {failed : Bool} {status : RelayStatus} {stage : WaveStage}

theorem StatusFits.of_writing {n : Nat} {st : AttemptStage} (h : StatusFits failed status (.writing n st) stage) :
    status = .writing ∧ stage = .writing := by
  cases h with
  | writing => exact ⟨rfl, rfl⟩
  | confirmed _ _ _ hwriting => cases hwriting

/-- A chain in its sense period: its relays are SENSING or confirmed, and the wave senses. -/
theorem StatusFits.of_sensing {x : Exchange} (hx : x = .senseInterval ∨ ∃ n st, x = .sensing n st)
    (h : StatusFits failed status x stage) :
    (status = .sensing ∨ status = .confirmed) ∧ ∃ d r, stage = .sensing d r := by
  cases h with
  | sensing _ _ d r | interval d r => exact ⟨.inl rfl, d, r, rfl⟩
  | confirmed _ d r => exact ⟨.inr rfl, d, r, rfl⟩
  | writing => simp at hx
  | latched => simp at hx
  | chainFailed => simp at hx

theorem StatusFits.mono {x : Exchange} (h : StatusFits failed status x stage) (v : Bool) (hv : failed = true → v = true) :
    StatusFits v status x stage := by
  cases h with
  | writing n st => exact .writing n st
  | latched _ hstage => exact .latched _ hstage
  | sensing n st d r => exact .sensing n st d r
  | interval d r => exact .interval d r
  | confirmed _ d r hwriting hlatched => exact .confirmed _ d r hwriting hlatched
  | chainFailed _ hf => exact .chainFailed _ (hv hf)

end

/-! ### One chain moves -/

/-- The exchange states of the chains with one replaced. -/
theorem exchange_setExchange (s : State) (c : Nat) (x : Exchange) (d : Nat) :
    (s.setExchange c x).exchange d = if d = c then x else s.exchange d :=
  table_get_put _ _ _ _ _

/-- A chain moves, with its own relays: every other chain and relay fits as before. -/
theorem Fits.move {w w' : Wave} {e e' : Nat → Exchange} {c : Nat} (h : Fits w e) (f : WaveRelay → WaveRelay)
    (hrelays : w'.relays = w.relays.map f) (hsame : ∀ x, (f x).relay = x.relay) (hstage : w'.stage = w.stage)
    (hfailed : w.failed = true → w'.failed = true) (hother : ∀ x ∈ w.relays, x.relay / 128 ≠ c → (f x).status = x.status)
    (he : ∀ d, d ≠ c → e' d = e d) (hbusy : e c ≠ .idle)
    (hchain : ∀ x ∈ w.relays, x.relay / 128 = c → StatusFits w'.failed (f x).status (e' c) w.stage) : Fits w' e' := by
  constructor
  · rw [hrelays, hstage]
    intro y hy
    obtain ⟨x, hx, rfl⟩ := List.mem_map.mp hy
    rw [hsame]
    by_cases hc : x.relay / 128 = c
    · rw [hc]
      exact hchain x hx hc
    · rw [hother x hx hc, he _ hc]
      exact (h.relays x hx).mono _ hfailed
  · rw [hrelays]
    intro d hd
    have hd' : ∀ x ∈ w.relays, x.relay / 128 ≠ d := fun x hx => by
      have hne := hd _ (List.mem_map_of_mem hx)
      rwa [hsame] at hne
    by_cases hc : d = c
    · subst hc
      exact absurd (h.untouched d hd') hbusy
    · rw [he d hc]
      exact h.untouched d hd'

theorem mem_withStatus (w : Wave) (c : Nat) (st : RelayStatus) (r : Nat) :
    r ∈ w.withStatus c st ↔ ∃ x ∈ w.relays, x.relay = r ∧ x.relay / 128 = c ∧ x.status = st := by
  simp only [Wave.withStatus, List.mem_map, List.mem_filter, decide_eq_true_eq]
  constructor
  · rintro ⟨x, ⟨hx, hc, hst⟩, rfl⟩
    exact ⟨x, hx, rfl, hc, hst⟩
  · rintro ⟨x, hx, rfl, hc, hst⟩
    exact ⟨x, ⟨hx, hc, hst⟩, rfl⟩

/-- Relays of one status on one chain are given another. -/
theorem Fits.mark {w w' : Wave} {e e' : Nat → Exchange} {c : Nat} {st new : RelayStatus} (h : Fits w e)
    (hrelays : w'.relays = w.given (w.withStatus c st) new) (hstage : w'.stage = w.stage)
    (hfailed : w.failed = true → w'.failed = true) (he : ∀ d, d ≠ c → e' d = e d) (hbusy : e c ≠ .idle)
    (hnew : (∃ x ∈ w.relays, x.relay / 128 = c ∧ x.status = st) → StatusFits w'.failed new (e' c) w.stage)
    (hkept : ∀ x ∈ w.relays, x.relay / 128 = c → x.status ≠ st → StatusFits w'.failed x.status (e' c) w.stage) :
    Fits w' e' := by
  refine h.move (c := c) (fun x => if x.relay ∈ w.withStatus c st then { x with status := new } else x) hrelays
    (fun x => by split <;> rfl) hstage hfailed (fun x _ hc => ?_) he hbusy fun x hx hc => ?_
  · rw [if_neg]
    intro hmem
    obtain ⟨y, -, hrelay, hy, -⟩ := (mem_withStatus w c st x.relay).mp hmem
    exact hc (hrelay ▸ hy)
  · split_ifs with hmem
    · obtain ⟨y, hy, -, hyc, hyst⟩ := (mem_withStatus w c st x.relay).mp hmem
      exact hnew ⟨y, hy, hyc, hyst⟩
    · exact hkept x hx hc fun hst => hmem ((mem_withStatus w c st x.relay).mpr ⟨x, hx, rfl, hc, hst⟩)

/-- A chain that goes on writing, or goes on sensing, leaves the wave as it is. -/
theorem Fits.goesOn {w : Wave} {e e' : Nat → Exchange} {c : Nat} (h : Fits w e) (he : ∀ d, d ≠ c → e' d = e d)
    (hkind : (∃ n st, e c = .writing n st) ∧ (∃ n st, e' c = .writing n st) ∨
      (e c = .senseInterval ∨ ∃ n st, e c = .sensing n st) ∧ ∃ n st, e' c = .sensing n st) : Fits w e' := by
  have hbusy : e c ≠ .idle := by
    rcases hkind with ⟨⟨n, st, hx⟩, -⟩ | ⟨hx | ⟨n, st, hx⟩, -⟩ <;> simp [hx]
  refine h.move id (List.map_id _).symm (fun _ => rfl) rfl id (fun _ _ _ => rfl) he hbusy fun x hx hc => ?_
  have hfits := h.relays x hx
  rw [hc] at hfits
  rcases hkind with ⟨⟨n, st, hx⟩, n', st', hx'⟩ | ⟨hx, n', st', hx'⟩
  · rw [hx] at hfits
    obtain ⟨hstatus, hstage⟩ := hfits.of_writing
    rw [hx', id, hstatus, hstage]
    exact .writing n' st'
  · obtain ⟨hstatus, d, r, hstage⟩ := hfits.of_sensing hx
    rw [hx', id, hstage]
    rcases hstatus with hst | hst <;> rw [hst]
    · exact .sensing n' st' d r
    · exact .confirmed _ d r rfl nofun

/-! ### The blocks besides the chains -/

/-- What the agreement of the wave stands on. -/
def base : Claim := Board.base.and Ranges.claim

theorem base_rules (pre : State → Prop) : Rules pre .any base :=
  (Board.base_rules pre).and (Ranges.rules pre Board.base)

/-- The agreement of the wave with its chains, which says nothing where no wave is. -/
def claim : Claim := ⟨State.WaveAgrees, State.WaveAgrees, fun _ => True, fun _ => True⟩

theorem waveAgrees_of_no_wave {s : State} (hw : s.coil.wave = none) : s.WaveAgrees :=
  waveAgrees_of_fits fun w h => absurd (hw.symm.trans h) (by simp)

/-- Exchange states put one after another. -/
theorem get_exchangesSet (t : Table Exchange) (f : Nat → Exchange) (chains : List Nat) (c : Nat) :
    (exchangesSet t f chains).get .idle c = if c ∈ chains then f c else t.get .idle c := by
  unfold exchangesSet
  induction chains generalizing t with
  | nil => rfl
  | cons d l ih =>
    rw [List.foldl_cons, ih, table_get_put]
    by_cases hl : c ∈ l <;> by_cases hd : c = d <;> simp [hl, hd]

/-- A wave just formed: attempt 1 of a write begins on the chains it touches. -/
theorem waveAgrees_waving {s : State} {t : Transition} {close : Bool} (hchains : ∀ c, s.exchange c = .idle)
    (hlist : (if close then s.engine.pendingClose else s.engine.pendingOpen) ≠ []) (hlimit : 1 ≤ t.waveLimit)
    (hrange : ∀ r ∈ if close then s.engine.pendingClose else s.engine.pendingOpen, r < 1024) :
    (waving s t close).WaveAgrees := by
  obtain ⟨r, l, hcons⟩ := List.exists_cons_of_ne_nil hlist
  set rs := (if close then s.engine.pendingClose else s.engine.pendingOpen).take t.waveLimit with hrs
  have hfirst : r ∈ rs := by
    obtain ⟨n, hn⟩ : ∃ n, t.waveLimit = n + 1 := ⟨t.waveLimit - 1, by omega⟩
    simp [hrs, hcons, hn]
  have hexchange : ∀ c, (waving s t close).exchange c = if c ∈ touchedChains rs then .writing 1 .shifting else .idle := by
    intro c
    rw [← hchains c]
    exact get_exchangesSet s.coil.exchanges (fun _ => .writing 1 .shifting) (touchedChains rs) c
  refine waveAgrees_of_fits ?_
  rintro _ ⟨⟩
  have hmem : ∀ x ∈ rs, x / 128 ∈ touchedChains rs := by
    intro x hx
    have hlt := hrange x (List.mem_of_mem_take hx)
    exact (mem_touchedChains rs _).mpr ⟨by omega, x, hx, rfl⟩
  refine ⟨⟨fun x hx => ?_, fun c hc => ?_⟩, ⟨fun _ => ⟨_, List.mem_map_of_mem hfirst, rfl⟩, nofun, nofun⟩⟩
  · obtain ⟨y, hy, rfl⟩ := List.mem_map.mp hx
    rw [hexchange, if_pos (hmem y hy)]
    exact .writing 1 .shifting
  · rw [hexchange, if_neg]
    intro htouched
    obtain ⟨-, y, hy, hyc⟩ := (mem_touchedChains rs c).mp htouched
    exact hc _ (List.mem_map_of_mem hy) hyc

theorem waveAgrees_lockOut (s : State) : s.lockOut.WaveAgrees := by
  rw [(lockOut_locksOutTo s).rest]
  exact waveAgrees_of_no_wave rfl

theorem waveAgrees_beginReset (s : State) (source : ResetSource) (lost : Bool) : (s.beginReset source lost).WaveAgrees := by
  unfold State.beginReset
  dsimp only
  split_ifs <;> exact waveAgrees_of_no_wave rfl

theorem blockRules (pre : State → Prop) : BlockRules pre base claim where
  beside hb _ h := by
    obtain ⟨p, n, q, rfl⟩ := hb
    exact { h with }
  raise _ _ h := { h with }
  guards hb _ _ _ := waveAgrees_of_no_wave hb.1.1.2.wave
  unguarded _ _ _ := trivial
  rests hb _ _ := waveAgrees_of_no_wave hb.1.1.2.wave
  opens hb _ ht hne := waveAgrees_waving hb.1.1.2.chains hne (hb.2.transition _ ht).1
    fun r hr => hb.2.lists r (List.mem_append_left _ hr)
  closes hb _ ht _ hne := waveAgrees_waving (close := true) hb.1.1.2.chains hne (hb.2.transition _ ht).1
    fun r hr => hb.2.lists r (List.mem_append_right _ hr)
  completes hb _ _ _ _ := waveAgrees_of_no_wave hb.1.1.2.wave
  suspends _ _ hb _ := waveAgrees_of_no_wave hb.1.1.2.wave
  locksOut _ _ := waveAgrees_lockOut _
  guarded _ _ _ := trivial
  heats _ _ _ := trivial
  faults _ _ _ _ _ _ := trivial
  resumes _ _ _ _ := trivial
  rollsBack _ _ _ _ _ _ := ⟨fun _ => trivial, fun _ => trivial⟩
  safeOpens _ _ _ _ _ := ⟨fun _ => trivial, fun _ => trivial⟩
  notesAbort _ h _ := { h with }
  empties _ h := { h with }
  latches _ h _ := { h with }
  takes _ _ _ _ _ _ := trivial
  halts _ _ _ h := { h with }
  leavesHalt _ _ _ h := { h with }
  changesMode _ _ _ _ h := { h with }
  accepts _ _ _ _ h _ _ := { h with }
  records _ _ h := { h with }
  stages _ _ h _ _ := { h with }
  stores start ws hs _ _ _ h := by
    obtain ⟨_, _, _, _, heq, -⟩ := Pending.storeWords_frame hs _ start ws
    rw [heq]
    exact { h with }
  takesNotices _ _ h := { h with }
  validates _ _ h := { h with }
  entersRun _ h _ _ := { h with }
  entersConfigure _ h _ _ _ _ _ := { h with }
  acknowledges _ _ h := { h with }
  movesLines _ _ _ _ h := { h with }
  resets source lost _ _ := waveAgrees_beginReset _ source lost
  recordsLinkLoss _ h _ := { h with }
  endsReset _ _ h _ := by
    unfold State.finishReset
    dsimp only
    split_ifs <;> exact { h with }

/-! ### The chains -/

section

variable {s : State} {w : Wave}

theorem waveAgrees_endWave (hb : base.mid s) (hw : s.coil.wave = some w) (v : Wave) : (s.endWave v).WaveAgrees := by
  have R := (base_rules fun _ => True).toBlockRules.and (blockRules fun _ => True)
  exact (R.endWave v ⟨(base_rules fun _ => True).ends trivial hb hw, trivial⟩).2

theorem waveAgrees_contactFails (hb : base.mid s) (hw : s.coil.wave = some w) {v : Wave} (hv : Refines w v) :
    (s.contactFails v).WaveAgrees := by
  rw [Rules.contactFails_eq]
  exact waveAgrees_endWave ((base_rules fun _ => True).contactFailed_mid hb hw hv) (Rules.contactFailed_wave s v) _

/-- The deadline of a sense period is the largest timeout among the relays SENSING. -/
theorem largestTimeout_senseDeadline (hne : w.sensing ≠ []) : LargestTimeout w.relays (senseDeadline w.sensing) := by
  have hmem : ∀ x, x ∈ w.sensing ↔ x ∈ w.relays ∧ x.status = .sensing := by simp [Wave.sensing]
  have hdeadline : senseDeadline w.sensing = (w.sensing.map WaveRelay.senseTimeout).foldl max 0 := by
    rw [senseDeadline, List.foldl_map]
  obtain ⟨⟨-, habove⟩, hattained, -⟩ := Plans.foldl_max_spec (w.sensing.map WaveRelay.senseTimeout) 0
  rw [hdeadline]
  refine ⟨fun x hx hst => habove _ (List.mem_map_of_mem ((hmem x).mpr ⟨hx, hst⟩)), ?_⟩
  rcases hattained with hzero | hin
  · obtain ⟨x, hx⟩ := List.exists_mem_of_ne_nil _ hne
    have hle := habove _ (List.mem_map_of_mem hx)
    exact ⟨x, ((hmem x).mp hx).1, ((hmem x).mp hx).2, by omega⟩
  · obtain ⟨x, hx, heq⟩ := List.mem_map.mp hin
    exact ⟨x, ((hmem x).mp hx).1, ((hmem x).mp hx).2, heq⟩

/-- A sense period that goes on keeps every relay with its chain. -/
theorem Fits.deadline {e : Nat → Exchange} (h : Fits w e) (hstage : ∃ d r, w.stage = .sensing d r) (d : Nat) (r : Bool) :
    Fits { w with stage := .sensing d r } e := by
  refine ⟨fun x hx => ?_, h.untouched⟩
  obtain ⟨d', r', hst⟩ := hstage
  have hfits := h.relays x hx
  rw [hst] at hfits
  generalize x.status = status, e (x.relay / 128) = ex at hfits ⊢
  cases hfits with
  | latched _ hor => simp at hor
  | sensing n st => exact .sensing n st d r
  | interval => exact .interval d r
  | confirmed _ _ _ hwriting hlatched => exact .confirmed _ d r hwriting hlatched
  | chainFailed _ hf => exact .chainFailed _ hf

theorem waveAgrees_senseProgress (hb : base.mid s) (hw : s.coil.wave = some w) (hfits : Fits w s.exchange)
    (hstage : ∃ d r, w.stage = .sensing d r) (now : Bool) : (s.senseProgress now).WaveAgrees := by
  obtain ⟨d, r, hst⟩ := hstage
  by_cases hsensing : w.sensing = []
  · simp only [State.senseProgress, hw, hst, hsensing, if_true]
    exact waveAgrees_endWave hb hw w
  · have hlargest := largestTimeout_senseDeadline hsensing
    rw [senseProgress_eq s w d _ r now hw hst hlargest]
    dsimp only
    split_ifs
    · exact waveAgrees_contactFails hb hw ((Refines.refl w).congr rfl rfl)
    · refine waveAgrees_of_fits ?_
      rintro _ ⟨⟩
      exact ⟨hfits.deadline ⟨d, r, hst⟩ _ _, nofun, nofun, by
        rintro _ _ ⟨⟩
        exact hlargest⟩

/-- A wave whose chains have all been written: its relays are LATCHED or failed. -/
theorem Fits.timedWait {e : Nat → Exchange} (h : Fits w e) (hstage : w.stage = .writing)
    (hwritten : ∀ x ∈ w.relays, (e (x.relay / 128)).isWriting = false) : Fits { w with stage := .timedWait } e := by
  refine ⟨fun x hx => ?_, h.untouched⟩
  have hfits := h.relays x hx
  have hnot := hwritten x hx
  rw [hstage] at hfits
  generalize x.status = status, e (x.relay / 128) = ex at hfits hnot ⊢
  cases hfits with
  | writing => cases hnot
  | latched _ _ => exact .latched _ (.inr rfl)
  | chainFailed _ hf => exact .chainFailed _ hf

theorem mem_chains (hb : base.mid s) (hw : s.coil.wave = some w) {x : WaveRelay} (hx : x ∈ w.relays) :
    x.relay / 128 ∈ w.chains := by
  have hlt := hb.2.wave w hw x hx
  exact (mem_touchedChains _ _).mpr ⟨by omega, x.relay, List.mem_map_of_mem hx, rfl⟩

theorem mem_latchedOf (v : Wave) (m : ConfirmMode) (r : Nat) :
    r ∈ Rules.latchedOf v m ↔ ∃ x ∈ v.relays, x.relay = r ∧ x.mode = m ∧ x.status = .latched := by
  simp only [Rules.latchedOf, List.mem_map, List.mem_filter, Bool.and_eq_true, decide_eq_true_eq]
  constructor
  · rintro ⟨x, ⟨hx, hm, hst⟩, rfl⟩
    exact ⟨x, hx, rfl, hm, hst⟩
  · rintro ⟨x, hx, rfl, hm, hst⟩
    exact ⟨x, ⟨hx, hm, hst⟩, rfl⟩

/-- The relays of a wave at the end of its timed wait. -/
theorem waited_relay {v : Wave} {y : WaveRelay} (hy : y ∈ (Rules.waited v).relays) :
    ∃ x ∈ v.relays, y.relay = x.relay ∧ y.status =
      if x.relay ∈ Rules.latchedOf v .sensed then .sensing
      else if x.relay ∈ Rules.latchedOf v .timed then .confirmed else x.status := by
  obtain ⟨z, hz, rfl⟩ := List.mem_map.mp hy
  obtain ⟨x, hx, rfl⟩ := List.mem_map.mp hz
  refine ⟨x, hx, ?_⟩
  by_cases htimed : x.relay ∈ Rules.latchedOf v .timed <;>
    by_cases hsensed : x.relay ∈ Rules.latchedOf v .sensed <;> simp [htimed, hsensed]

/-- The end of a timed wait: each latched chain senses or is DONE, as its relays are. -/
theorem fits_timedOut {v : Wave} (hchains : ∀ x ∈ v.relays, x.relay / 128 ∈ v.chains) (hfits : Fits v s.exchange)
    (hstage : v.stage = .timedWait) (d : Nat) (r : Bool) :
    Fits { Rules.waited v with stage := .sensing d r } (Rules.timedOut s v).exchange := by
  have hexchange : ∀ c, (Rules.timedOut s v).exchange c =
      if c ∈ v.chains.filter (fun c => decide (s.exchange c = .latched)) then Rules.waitedExchange v c
      else s.exchange c := by
    intro c
    rw [State.exchange, Rules.timedOut, Rules.confirmAll_coil]
    exact get_exchangesSet ..
  have hmoved : ∀ m y, y ∈ Rules.latchedOf v m → (Rules.timedOut s v).exchange (y / 128) = Rules.waitedExchange v (y / 128) := by
    intro m y hy
    obtain ⟨z, hz, rfl, -, hst⟩ := (mem_latchedOf v m y).mp hy
    have hz' := hfits.relays z hz
    rw [hst] at hz'
    have hx : s.exchange (z.relay / 128) = .latched := by
      generalize s.exchange (z.relay / 128) = x at hz' ⊢
      cases hz'
      rfl
    rw [hexchange, if_pos (List.mem_filter.mpr ⟨hchains z hz, by simp [hx]⟩)]
  constructor
  · intro y hy
    obtain ⟨x, hx, hrelay, hstatus⟩ := waited_relay hy
    rw [hrelay, hstatus]
    by_cases hsensed : x.relay ∈ Rules.latchedOf v .sensed
    · rw [if_pos hsensed, hmoved _ _ hsensed, Rules.waitedExchange, if_pos]
      · exact .sensing _ _ _ _
      · exact List.any_eq_true.mpr ⟨_, hsensed, by simp⟩
    · rw [if_neg hsensed]
      by_cases htimed : x.relay ∈ Rules.latchedOf v .timed
      · rw [if_pos htimed, hmoved _ _ htimed, Rules.waitedExchange]
        split_ifs <;> exact .confirmed _ _ _ rfl nofun
      · rw [if_neg htimed]
        have hx' := hfits.relays x hx
        rw [hstage] at hx'
        have hnot : x.status ≠ .latched := by
          intro hst
          cases hmode : x.mode with
          | timed => exact htimed ((mem_latchedOf _ _ _).mpr ⟨x, hx, rfl, hmode, hst⟩)
          | sensed => exact hsensed ((mem_latchedOf _ _ _).mpr ⟨x, hx, rfl, hmode, hst⟩)
        have hsame : s.exchange (x.relay / 128) ≠ .latched →
            (Rules.timedOut s v).exchange (x.relay / 128) = s.exchange (x.relay / 128) := by
          intro hne
          rw [hexchange, if_neg]
          simp [hne]
        generalize x.status = status, s.exchange (x.relay / 128) = ex at hx' hsame hnot ⊢
        cases hx' with
        | latched => exact absurd rfl hnot
        | chainFailed _ hf =>
          rw [hsame nofun]
          exact .chainFailed _ hf
  · intro c hc
    have hc' : ∀ x ∈ v.relays, x.relay / 128 ≠ c := by
      intro x hx
      have hmem : x.relay ∈ (Rules.waited v).relays.map WaveRelay.relay := by
        rw [(Rules.refines_waited v).relays]
        exact List.mem_map_of_mem hx
      obtain ⟨y, hy, heq⟩ := List.mem_map.mp hmem
      rw [← heq]
      exact hc y hy
    rw [hexchange, if_neg]
    · exact hfits.untouched c hc'
    · simp [hfits.untouched c hc']

theorem waveAgrees_endTimedWait (hb : base.mid s) (hw : s.coil.wave = some w) {v : Wave} (hclose : v.close = w.close)
    (hrelays : v.relays = w.relays) (hstage : v.stage = .timedWait) (hfits : Fits v s.exchange) :
    (s.endTimedWait v).WaveAgrees := by
  rw [Rules.endTimedWait_eq]
  have hchains : ∀ x ∈ v.relays, x.relay / 128 ∈ v.chains := by
    rw [chains_eq w v (by rw [hrelays]), hrelays]
    exact fun x hx => mem_chains hb hw hx
  exact waveAgrees_senseProgress ((base_rules fun _ => True).timedOut_mid hb hw hclose hrelays)
    (by rw [Rules.timedOut, Rules.confirmAll_coil]) (fits_timedOut hchains hfits hstage _ _) ⟨_, _, rfl⟩ false

theorem waveAgrees_writeProgress (hb : base.mid s) (hw : s.coil.wave = some w) (hfits : Fits w s.exchange)
    (hstage : w.stage = .writing) : s.writeProgress.WaveAgrees := by
  have hchains := fun x (hx : x ∈ w.relays) => mem_chains hb hw hx
  have htouches : ∀ c ∈ w.chains, ∃ x ∈ w.relays, x.relay / 128 = c := by
    intro c hc
    obtain ⟨-, r, hr, hrc⟩ := (mem_touchedChains _ c).mp hc
    obtain ⟨x, hx, rfl⟩ := List.mem_map.mp hr
    exact ⟨x, hx, hrc⟩
  simp only [State.writeProgress, hw]
  split_ifs with hwriting hlatched htime
  · refine waveAgrees_of_fits fun w' hw' => ?_
    cases hw.symm.trans hw'
    refine ⟨hfits, fun _ => ?_, by simp [hstage], by simp [hstage]⟩
    obtain ⟨c, hc, hx⟩ := List.any_eq_true.mp hwriting
    obtain ⟨n, st, hx⟩ := (isWriting_iff _).mp hx
    obtain ⟨x, hxw, rfl⟩ := htouches c hc
    have hxfits := hfits.relays x hxw
    rw [hx] at hxfits
    exact ⟨x, hxw, hxfits.of_writing.1⟩
  all_goals
    have hwritten : ∀ x ∈ w.relays, (s.exchange (x.relay / 128)).isWriting = false := fun x hx => by
      simpa using List.any_eq_false.mp (Bool.eq_false_of_not_eq_true hwriting) _ (hchains x hx)
  · exact waveAgrees_endTimedWait hb hw (v := { w with stage := .timedWait }) rfl rfl rfl (hfits.timedWait hstage hwritten)
  · refine waveAgrees_of_fits ?_
    rintro _ ⟨⟩
    refine ⟨hfits.timedWait hstage hwritten, nofun, fun _ => ?_, nofun⟩
    obtain ⟨c, hc, hx⟩ := List.any_eq_true.mp hlatched
    obtain ⟨x, hxw, rfl⟩ := htouches c hc
    have hxfits := hfits.relays x hxw
    rw [of_decide_eq_true hx, hstage] at hxfits
    refine ⟨x, hxw, ?_⟩
    generalize x.status = status at hxfits ⊢
    cases hxfits
    rfl
  · exact waveAgrees_endWave hb hw w

/-- A chain in an exchange has a relay of the wave. -/
theorem touched_of_busy (hfits : Fits w s.exchange) {c : Nat} (hbusy : s.exchange c ≠ .idle) :
    ∃ x ∈ w.relays, x.relay / 128 = c := by
  by_contra hno
  exact hbusy (hfits.untouched c fun x hx hc => hno ⟨x, hx, hc⟩)

theorem stage_of_writing (hfits : Fits w s.exchange) {c n : Nat} {st : AttemptStage} (hx : s.exchange c = .writing n st) :
    w.stage = .writing := by
  obtain ⟨x, hxw, rfl⟩ := touched_of_busy hfits (by rw [hx]; nofun)
  have hxfits := hfits.relays x hxw
  rw [hx] at hxfits
  exact hxfits.of_writing.2

theorem stage_of_sensing (hfits : Fits w s.exchange) {c : Nat}
    (hx : s.exchange c = .senseInterval ∨ ∃ n st, s.exchange c = .sensing n st) : ∃ d r, w.stage = .sensing d r := by
  obtain ⟨x, hxw, rfl⟩ := touched_of_busy hfits (by rcases hx with hx | ⟨n, st, hx⟩ <;> rw [hx] <;> nofun)
  exact ((hfits.relays x hxw).of_sensing hx).2

/-- An exchange that goes on leaves the wave as it is. -/
theorem waveAgrees_goesOn (h : s.WaveAgrees) (c : Nat) (x : Exchange)
    (hkind : (∃ n st, s.exchange c = .writing n st) ∧ (∃ n st, x = .writing n st) ∨
      (s.exchange c = .senseInterval ∨ ∃ n st, s.exchange c = .sensing n st) ∧ ∃ n st, x = .sensing n st) :
    (s.setExchange c x).WaveAgrees := by
  refine waveAgrees_of_fits fun w hw => ⟨?_, waits_of_waveAgrees h hw⟩
  refine (fits_of_waveAgrees h hw).goesOn (c := c) (fun d hd => ?_) ?_
  · rw [exchange_setExchange, if_neg hd]
  · rw [exchange_setExchange, if_pos rfl]
    exact hkind

theorem waveAgrees_chainLatches (hb : base.mid s) (h : s.WaveAgrees) {c : Fin 8} {n : Nat} {st : AttemptStage}
    (hx : s.exchange c = .writing n st) : (s.chainLatches c).WaveAgrees := by
  obtain ⟨w, hw⟩ := Agreement.wave_of_exchange hb.1.1.2 (by rw [hx]; nofun)
  have hfits := fits_of_waveAgrees h hw
  have hstage := stage_of_writing hfits hx
  have R := base_rules fun _ => True
  have hmark := refines_mark .latched (unconfirmed_withStatus w c (st := .writing) (by decide)).status
  have hbusy : s.exchange c ≠ .idle := by rw [hx]; nofun
  simp only [State.chainLatches, hw]
  refine waveAgrees_writeProgress (w := w.mark (w.withStatus c .writing) .latched)
    (R.exchange c _ trivial (R.rewaves trivial hb hw hmark) hbusy) rfl ?_ hstage
  refine hfits.mark (c := c) rfl rfl id (fun d hd => ?_) (by rw [hx]; nofun) (fun _ => ?_) fun x hxw hc hne => ?_
  · rw [exchange_setExchange, if_neg hd]
    rfl
  · rw [exchange_setExchange, if_pos rfl]
    exact .latched _ (.inl hstage)
  · have hxfits := hfits.relays x hxw
    rw [hc, hx] at hxfits
    exact absurd hxfits.of_writing.1 hne

/-- The chain that fails and its relays that it was writing or sensing. -/
theorem fits_chainFails (hfits : Fits w s.exchange) {c : Fin 8} {status : RelayStatus}
    (hx : (∃ n st, s.exchange c = .writing n st) ∧ status = .writing ∨
      (∃ n st, s.exchange c = .sensing n st) ∧ status = .sensing) :
    Fits { w.mark (w.withStatus c status) .chainFailed with failed := true }
      (s.chainFails w c (w.withStatus c status)).exchange := by
  have hexchange : ∀ d, (s.chainFails w c (w.withStatus c status)).exchange d =
      if d = (c : Nat) then .failed else s.exchange d := by
    intro d
    rw [State.exchange, State.chainFails, Rules.faulted_wave]
    exact table_get_put Exchange.idle s.coil.exchanges c d Exchange.failed
  have hbusy : s.exchange c ≠ .idle := by
    rcases hx with ⟨⟨n, st, hx⟩, -⟩ | ⟨⟨n, st, hx⟩, -⟩ <;> rw [hx] <;> nofun
  refine hfits.mark (c := c) rfl rfl (fun _ => rfl) (fun d hd => ?_) hbusy (fun _ => ?_) fun x hxw hc hne => ?_
  · rw [hexchange, if_neg hd]
  · rw [hexchange, if_pos rfl]
    exact .chainFailed _ rfl
  · rw [hexchange, if_pos rfl]
    have hxfits := hfits.relays x hxw
    rw [hc] at hxfits
    rcases hx with ⟨⟨n, st, hx⟩, rfl⟩ | ⟨hx, rfl⟩
    · rw [hx] at hxfits
      exact absurd hxfits.of_writing.1 hne
    · obtain ⟨hstatus, d, r, hstage⟩ := hxfits.of_sensing (.inr hx)
      rw [hstatus.resolve_left hne, hstage]
      exact .confirmed _ d r rfl nofun

theorem waveAgrees_writeAttemptFails (hb : base.mid s) (h : s.WaveAgrees) {c : Fin 8} {n : Nat} {st : AttemptStage}
    (hx : s.exchange c = .writing n st) : (s.writeAttemptFails c n).WaveAgrees := by
  obtain ⟨w, hw⟩ := Agreement.wave_of_exchange hb.1.1.2 (by rw [hx]; nofun)
  have hfits := fits_of_waveAgrees h hw
  unfold State.writeAttemptFails
  split_ifs
  · exact waveAgrees_goesOn h c _ (.inl ⟨⟨n, st, hx⟩, _, _, rfl⟩)
  · have hstage := stage_of_writing hfits hx
    simp only [hw]
    exact waveAgrees_writeProgress
      ((base_rules fun _ => True).chainFails hb hw (by rw [hx]; nofun) (unconfirmed_withStatus w c (by decide)))
      (Rules.chainFails_wave ..) (fits_chainFails hfits (.inl ⟨⟨n, st, hx⟩, rfl⟩)) hstage

theorem waveAgrees_senseAttemptFails (hb : base.mid s) (h : s.WaveAgrees) {c : Fin 8} {n : Nat} {st : AttemptStage}
    (hx : s.exchange c = .sensing n st) : (s.senseAttemptFails c n).WaveAgrees := by
  obtain ⟨w, hw⟩ := Agreement.wave_of_exchange hb.1.1.2 (by rw [hx]; nofun)
  have hfits := fits_of_waveAgrees h hw
  unfold State.senseAttemptFails
  split_ifs
  · exact waveAgrees_goesOn h c _ (.inr ⟨.inr ⟨n, st, hx⟩, _, _, rfl⟩)
  · have hstage := stage_of_sensing hfits (.inr ⟨n, st, hx⟩)
    simp only [hw]
    exact waveAgrees_senseProgress
      ((base_rules fun _ => True).chainFails hb hw (by rw [hx]; nofun) (unconfirmed_withStatus w c (by decide)))
      (Rules.chainFails_wave ..) (fits_chainFails hfits (.inr ⟨⟨n, st, hx⟩, rfl⟩)) hstage false

/-- The relay that a sense exchange leaves of one of the wave: confirmed where it matches, and marked as read where it
does not. -/
def examinedRelay (w : Wave) (c : Fin 8) (made : Image) (x : WaveRelay) : WaveRelay :=
  let y := if x.relay ∈ Rules.matchingOf w c made then { x with status := .confirmed } else x
  if y.relay ∈ Rules.missedOf w c made ∧ y.senseTimeout = 0 then { y with spent := true } else y

theorem sensedWave_relays (w : Wave) (c : Fin 8) (made : Image) :
    (Rules.sensedWave w c made).relays = w.relays.map (examinedRelay w c made) := by
  change ((w.relays.map _).map _) = _
  rw [List.map_map]
  rfl

theorem examinedRelay_relay (w : Wave) (c : Fin 8) (made : Image) (x : WaveRelay) :
    (examinedRelay w c made x).relay = x.relay := by
  unfold examinedRelay
  dsimp only
  split <;> split <;> rfl

theorem examinedRelay_status (w : Wave) (c : Fin 8) (made : Image) (x : WaveRelay) :
    (examinedRelay w c made x).status = if x.relay ∈ Rules.matchingOf w c made then .confirmed else x.status := by
  unfold examinedRelay
  dsimp only
  split <;> split <;> rfl

/-- A chain that has been sensed is DONE or waits for its next sense exchange. -/
theorem fits_sensedOnce (hfits : Fits w s.exchange) {c : Fin 8} {n : Nat} {st : AttemptStage} (made : Image)
    (hx : s.exchange c = .sensing n st) : Fits (Rules.sensedWave w c made) (Rules.sensedOnce s w c made).exchange := by
  have hexchange : ∀ d, (Rules.sensedOnce s w c made).exchange d =
      if d = (c : Nat) then
        if (Rules.sensedWave w c made).withStatus c .sensing = [] then .done else .senseInterval
      else s.exchange d := by
    intro d
    rw [Rules.sensedOnce, exchange_setExchange]
    split_ifs
    · rfl
    · rfl
    · rw [State.exchange, Rules.confirmAll_coil]
      rfl
  refine hfits.move (c := c) (examinedRelay w c made) (sensedWave_relays w c made) (examinedRelay_relay w c made) rfl id
    (fun x _ hc => ?_) (fun d hd => by rw [hexchange, if_neg hd]) (by rw [hx]; nofun) fun x hxw hc => ?_
  · rw [examinedRelay_status, if_neg]
    intro hmem
    obtain ⟨y, hy, hrelay⟩ := List.mem_map.mp (List.mem_of_mem_filter hmem)
    have hyc : y.relay / 128 = c ∧ y.status = .sensing ∧ y.spent = false := by simpa using (List.mem_filter.mp hy).2
    exact hc (hrelay ▸ hyc.1)
  · have hxfits := hfits.relays x hxw
    rw [hc, hx] at hxfits
    obtain ⟨hstatus, d, r, hstage⟩ := hxfits.of_sensing (.inr ⟨n, st, rfl⟩)
    rw [hexchange, if_pos rfl, hstage]
    have hstatus' : (examinedRelay w c made x).status = .sensing ∨ (examinedRelay w c made x).status = .confirmed := by
      rw [examinedRelay_status]
      split_ifs
      · exact .inr rfl
      · exact hstatus
    rcases hstatus' with hsensing | hconfirmed
    · have hleft : (Rules.sensedWave w c made).withStatus c .sensing ≠ [] := by
        refine List.ne_nil_of_mem ((mem_withStatus _ _ _ x.relay).mpr ⟨examinedRelay w c made x, ?_, ?_, ?_, hsensing⟩)
        · rw [sensedWave_relays]
          exact List.mem_map_of_mem hxw
        · exact examinedRelay_relay ..
        · rw [examinedRelay_relay, hc]
      rw [if_neg hleft, hsensing]
      exact .interval d r
    · rw [hconfirmed]
      split_ifs <;> exact .confirmed _ d r rfl nofun

theorem waveAgrees_senseCompletes (hb : base.mid s) (h : s.WaveAgrees) {c : Fin 8} {n : Nat} {st : AttemptStage}
    (made : Image) (hx : s.exchange c = .sensing n st) : (s.senseCompletes c made).WaveAgrees := by
  obtain ⟨w, hw⟩ := Agreement.wave_of_exchange hb.1.1.2 (by rw [hx]; nofun)
  have hfits := fits_of_waveAgrees h hw
  have hstage := stage_of_sensing hfits (.inr ⟨n, st, hx⟩)
  rw [Rules.senseCompletes_eq c made hw]
  refine waveAgrees_senseProgress (w := Rules.sensedWave w c made)
    ((base_rules fun _ => True).sensedOnce_mid made hb hw (by rw [hx]; nofun)) ?_ (fits_sensedOnce hfits made hx) hstage
    false
  rw [Rules.sensedOnce, setExchange_wave, Rules.confirmAll_coil]

theorem chainEffect_waveAgrees {u : State} (hb : base.mid s) (h : s.WaveAgrees) (he : ChainEffect s u) : u.WaveAgrees := by
  cases he with
  | awaitsWriteEcho c n hx => exact waveAgrees_goesOn h c _ (.inl ⟨⟨n, _, hx⟩, _, _, rfl⟩)
  | awaitsSenseEcho c n hx => exact waveAgrees_goesOn h c _ (.inr ⟨.inr ⟨n, _, hx⟩, _, _, rfl⟩)
  | latches c n hx => exact waveAgrees_chainLatches hb h hx
  | failsWrite c n hx => exact waveAgrees_writeAttemptFails hb h hx
  | senses c n made hx => exact waveAgrees_senseCompletes hb h made hx
  | failsSense c n hx => exact waveAgrees_senseAttemptFails hb h hx
  | endsTimedWait w hw hstage => exact waveAgrees_endTimedWait hb hw rfl rfl hstage (fits_of_waveAgrees h hw)
  | endsInterval c hx => exact waveAgrees_goesOn h c _ (.inr ⟨.inl hx, _, _, rfl⟩)
  | reachesDeadline =>
    cases hw : s.coil.wave with
    | none =>
      simp only [State.senseProgress, hw]
      exact h
    | some w =>
      cases hstage : w.stage with
      | sensing d r => exact waveAgrees_senseProgress hb hw (fits_of_waveAgrees h hw) ⟨d, r, hstage⟩ true
      | writing | timedWait =>
        simp only [State.senseProgress, hw, hstage]
        exact h

end

theorem step_waveAgrees {s t : State} (hstep : step s = .next t) (hb : base.inv s) (h : s.WaveAgrees) : t.WaveAgrees := by
  have B := base_rules fun _ => True
  refine ((B.toBlockRules.and (blockRules fun _ => True)).step hstep (fun _ _ => trivial) ⟨hb, h⟩ fun u v hu he => ?_).2
  exact ⟨B.chainEffect he hu.1, chainEffect_waveAgrees hu.1 hu.2 he⟩

/-- Settles O59: the lists and the presence of held relays rule by rule, and the wave effect by effect. -/
theorem stepsKeepUnknownRelaysPendingAndHeldRelaysPresent :
    Obligations.StepsKeepUnknownRelaysPendingAndHeldRelaysPresent := fun _ _ hcanon hagree hstep =>
  ⟨Pending.step_pending hstep hcanon hagree, Presence.step_holdsPresent hstep hcanon hagree,
    fun hpending hrange h => step_waveAgrees hstep ⟨⟨⟨hcanon, hagree⟩, hpending⟩, hrange⟩ h⟩

end Sys2Proof.WaveChains
end

section
/-! The frames on the ring and the queue: what the blocks do besides neither reads nor writes them, so that an event is the
same with a READ being filled and without one (R116, R181). -/

namespace Sys2Proof.Traffic

open Sys2Proof.Machine Sys2Proof.Laws Sys2Proof.Effects Sys2Proof.Kept

/-- `s` with another READ being filled, other frames sent, another queue and another count of free values. -/
def carrying (s : State) (o : Option Reading) (l : List (List Word)) (q : List Instr) (v : Nat) : State :=
  { s with ring := { s.ring with reading := o, sent := l }, pending := q, free := v }

/-- `f` neither reads nor writes the READ being filled, the frames sent, the queue and the count of free values. -/
def Bystander (f : State → State) : Prop := ∀ s o l q v, f (carrying s o l q v) = carrying (f s) o l q v

theorem carrying_self (s : State) : carrying s s.ring.reading s.ring.sent s.pending s.free = s := rfl

namespace Bystander

theorem comp {f g : State → State} (hg : Bystander g) (hf : Bystander f) : Bystander (fun s => g (f s)) :=
  fun s o l q v => by
    change g (f (carrying s o l q v)) = _
    rw [hf, hg]

/-- What does not look at the traffic leaves it as it was. -/
theorem keeps {f : State → State} (h : Bystander f) (s : State) :
    (f s).ring.reading = s.ring.reading ∧ (f s).ring.sent = s.ring.sent ∧ (f s).pending = s.pending ∧
      (f s).free = s.free := by
  have heq := h s s.ring.reading s.ring.sent s.pending s.free
  rw [carrying_self] at heq
  rw [heq]
  exact ⟨rfl, rfl, rfl, rfl⟩

theorem reading {f : State → State} (h : Bystander f) (s : State) : (f s).ring.reading = s.ring.reading := (h.keeps s).1

theorem sent {f : State → State} (h : Bystander f) (s : State) : (f s).ring.sent = s.ring.sent := (h.keeps s).2.1

theorem pending {f : State → State} (h : Bystander f) (s : State) : (f s).pending = s.pending := (h.keeps s).2.2.1

theorem free {f : State → State} (h : Bystander f) (s : State) : (f s).free = s.free := (h.keeps s).2.2.2

end Bystander

/-! ### The gate and the engine -/

theorem bystander_raise (c : Cause) : Bystander (fun s => s.raise c) := fun _ _ _ _ _ => rfl

theorem bystander_haltedFor (r : Option HaltReason) : Bystander (fun s => haltedFor s r) := by
  cases r <;> exact fun _ _ _ _ _ => rfl

theorem bystander_haltGate (r : HaltReason) : Bystander (fun s => s.haltGate r) := fun s o l q v => by
  simp only [haltGate_eq]
  rfl

theorem bystander_gateSuspended : Bystander State.gateSuspended := fun s o l q v => by
  rw [gateSuspended_eq, gateSuspended_eq]
  change (if s.gate.mode = .free then _ else _) = _
  split_ifs
  · rfl
  · exact bystander_haltGate .fault s o l q v

theorem bystander_suspend (r : SuspendReason) : Bystander (fun s => s.suspend r) := fun s o l q v => by
  simp only [suspend_eq]
  exact bystander_gateSuspended ((suspended s r).raise .suspend) o l q v

theorem bystander_complete (t : Transition) : Bystander (fun s => s.complete t) := fun s o l q v => by
  simp only [complete_eq]
  exact bystander_haltedFor (haltAtEnd t s.gate.mode) ((ended s t).raise .done) o l q v

theorem bystander_enterPhase : Bystander State.enterPhase := fun s o l q v => by
  unfold State.enterPhase
  change (match s.engine.transition with | none => _ | some t => _) = _
  cases s.engine.transition with
  | none => rfl
  | some t =>
    change (if s.engine.pendingOpen ≠ [] then _ else if s.engine.pendingClose ≠ [] then _ else _) = _
    dsimp only
    split_ifs
    · rfl
    · rfl
    · exact bystander_complete t s o l q v

theorem bystander_beginPhases : Bystander State.beginPhases := fun s o l q v => by
  unfold State.beginPhases
  change (match s.engine.transition with | none => _ | some t => _) = _
  cases s.engine.transition with
  | none => rfl
  | some t =>
    dsimp only
    split_ifs
    · rfl
    · exact bystander_enterPhase s o l q v

theorem bystander_takeTrigger : Bystander State.takeTrigger := fun s o l q v => by
  unfold State.takeTrigger
  change (match s.gate.slot with | some p => _ | none => _) = _
  cases s.gate.slot with
  | none => rfl
  | some p =>
    change (if s.isStale p = true then _ else _) = _
    dsimp only
    split_ifs
    · rfl
    · exact bystander_beginPhases (planTaken s p) o l q v

theorem bystander_reexamine : Bystander State.reexamine := fun s o l q v => by
  unfold State.reexamine
  change (if (s.gate.latch && !s.mustLatch) = true then _ else _) = _
  split_ifs
  · exact bystander_takeTrigger (unlatched s) o l q v
  · rfl

theorem bystander_trigger : Bystander State.trigger := fun s o l q v => by
  unfold State.trigger
  change (if s.control.mode ≠ .run then _ else if s.gate.latch = true then _ else if s.mustLatch = true then _ else _) = _
  split_ifs
  · rfl
  · rfl
  · rfl
  · exact bystander_takeTrigger s o l q v

theorem bystander_advance : Bystander State.advance := by
  have h : State.advance = fun s => s.enterPhase.reexamine := funext fun s => by rw [State.advance, toldIdle_eq]
  exact h ▸ bystander_reexamine.comp bystander_enterPhase

theorem bystander_launch : Bystander State.launch := by
  have h : State.launch = fun s => s.beginPhases.reexamine := funext fun s => by rw [State.launch, toldIdle_eq]
  exact h ▸ bystander_reexamine.comp bystander_beginPhases

theorem bystander_setGateMode (m : GateMode) : Bystander (fun s => s.setGateMode m) := fun s o l q v => by
  unfold State.setGateMode
  change (if m = .halt then _ else if s.gate.mode = .halt then _ else _) = _
  dsimp only
  split_ifs
  · exact bystander_haltGate .command s o l q v
  · exact bystander_reexamine { s with gate.mode := m, gate.reason := .none } o l q v
  · rfl

/-! ### Resolutions -/

theorem bystander_cancelResolution : Bystander State.cancelResolution := fun s o l q v => by
  unfold State.cancelResolution
  change (match s.resolver.context with | none => _ | some ctx => _) = _
  cases s.resolver.context with
  | none => rfl
  | some ctx => exact congrArg (fun u => State.raise u .resolveFail) (bystander_reexamine (cancelled s ctx) o l q v)

theorem bystander_resumeTransition (t : Transition) : Bystander (fun s => s.resumeTransition t) :=
  fun s => bystander_launch (resumed s t)

theorem bystander_startRollback (t : Transition) : Bystander (fun s => s.startRollback t) :=
  fun s => (bystander_cancelResolution.comp bystander_launch) (rolledBack s t)

theorem bystander_startSafeOpen : Bystander State.startSafeOpen :=
  fun s => (bystander_cancelResolution.comp bystander_launch) (safeOpened s)

theorem bystander_endResolution (r : ResultRecord) : Bystander (fun s => s.endResolution r) :=
  fun s => bystander_reexamine (withResolver s { context := none, result := r })

section

variable (s : State) (o : Option Reading) (l : List (List Word)) (q : List Instr) (v : Nat) (ctx : Resolution)

theorem applyEntries_carrying (x : Owner) (run : List Nat) (t : Holdings) :
    (carrying s o l q v).applyEntries ctx x run t = s.applyEntries ctx x run t := by
  induction run generalizing t with
  | nil => rfl
  | cons i is ih =>
    have hentry : (carrying s o l q v).applyEntry ctx x t i = s.applyEntry ctx x t i := rfl
    simp only [State.applyEntries, hentry, ih]

theorem applyOwners_carrying (run : List Nat) (os : List Owner) (t : Holdings) :
    (carrying s o l q v).applyOwners ctx run os t = s.applyOwners ctx run os t := by
  induction os generalizing t with
  | nil => rfl
  | cons x xs ih => simp only [State.applyOwners, applyEntries_carrying, ih]

theorem resolve_carrying : (carrying s o l q v).resolve ctx = s.resolve ctx := by
  have hnet : ∀ t, (carrying s o l q v).netCheck t = s.netCheck t := fun _ => rfl
  have hplan : ∀ t, (carrying s o l q v).planFor ctx t = s.planFor ctx t := fun _ => rfl
  simp only [State.resolve, State.buildTarget, applyOwners_carrying, hnet, hplan]

end

/-- A resolution that has ended OK, with its plan handed on and its cause raised: R58 but for an APPLY's own trigger. -/
def resolved (s : State) (ctx : Resolution) (p : Plan) : State :=
  ((if ctx.action.stages then s.stagePlan p else s).endResolution
    (okResult ctx p (ctx.action.stages && s.gate.slot.isSome))).raise .resolved

theorem completeResolution_of_ok {s : State} {ctx : Resolution} {p : Plan} (h : s.resolve ctx = .ok p) :
    s.completeResolution ctx = if ctx.action = .apply then (resolved s ctx p).trigger else resolved s ctx p := by
  simp only [State.completeResolution, h]
  rfl

theorem completeResolution_of_error {s : State} {ctx : Resolution} {c : Conflict} (h : s.resolve ctx = .error c) :
    s.completeResolution ctx = (s.endResolution (failedResult ctx c)).raise .resolveFail := by
  simp only [State.completeResolution, h]

theorem bystander_resolved (ctx : Resolution) (p : Plan) : Bystander (fun s => resolved s ctx p) := fun s o l q v => by
  unfold resolved
  cases ctx.action.stages
  · exact congrArg (fun u => State.raise u .resolved) (bystander_endResolution _ s o l q v)
  · exact congrArg (fun u => State.raise u .resolved) (bystander_endResolution _ (s.stagePlan p) o l q v)

theorem bystander_completeResolution (ctx : Resolution) : Bystander (fun s => s.completeResolution ctx) := fun s o l q v => by
  have hresolve := resolve_carrying s o l q v ctx
  dsimp only
  cases h : s.resolve ctx with
  | error c =>
    rw [completeResolution_of_error h, completeResolution_of_error (hresolve.trans h)]
    exact congrArg (fun u => State.raise u .resolveFail) (bystander_endResolution (failedResult ctx c) s o l q v)
  | ok p =>
    rw [completeResolution_of_ok h, completeResolution_of_ok (hresolve.trans h)]
    split_ifs
    · exact (bystander_trigger.comp (bystander_resolved ctx p)) s o l q v
    · exact bystander_resolved ctx p s o l q v

/-! ### Suspension, lockout and resets -/

/-- The part shut down, before its resolution is cancelled and LOCKOUT raised (R95, R140). -/
def shutDown (s : State) : State :=
  { s with
    engine.quiet := 0, engine.guardWait := none,
    coil.coilEnable := false, coil.wave := none, coil.exchanges := [],
    engine.actual := [], engine.pendingOpen := [], engine.pendingClose := [],
    engine.holdings := [], engine.baseMap := [],
    engine.transition := none, engine.abortNoted := false, engine.phase := .lockout,
    engine.suspension := .none, engine.suspendedPhase := none,
    control.mode := .lockedOut,
    gate.slot := none, gate.latch := false }

theorem lockOut_eq (s : State) : s.lockOut = (shutDown s).cancelResolution.raise .lockout := rfl

theorem bystander_lockOut : Bystander State.lockOut := fun s o l q v => by
  rw [lockOut_eq, lockOut_eq]
  exact congrArg (fun u => State.raise u .lockout) (bystander_cancelResolution (shutDown s) o l q v)

theorem bystander_beginReset (source : ResetSource) (lost : Bool) : Bystander (fun s => s.beginReset source lost) := by
  cases source <;> exact fun _ _ _ _ _ => rfl

theorem bystander_finishReset (r : ResetRun) (straps : BitVec 4) : Bystander (fun s => s.finishReset r straps) := by
  obtain ⟨source, lost⟩ := r
  cases source <;> exact fun _ _ _ _ _ => rfl

/-! ### Wear and faults -/

theorem bystander_handNotice (n : Notice) : Bystander (fun s => s.handNotice n) := fun s o l q v => by
  unfold State.handNotice
  change (if s.wear.notices.length < 16 then _ else _) = _
  dsimp only
  split_ifs <;> rfl

theorem bystander_setWear (r : Nat) (w : WearRecord) : Bystander (fun s => s.setWear r w) := fun _ _ _ _ _ => rfl

theorem bystander_addWear (r weight : Nat) : Bystander (fun s => s.addWear r weight) := fun s o l q v => by
  unfold State.addWear
  simp only [show ∀ r, (carrying s o l q v).wearOf r = s.wearOf r from fun _ => rfl,
    show ∀ r, (carrying s o l q v).classOf r = s.classOf r from fun _ => rfl]
  simp only [fun r w s => bystander_setWear r w s o l q v]
  split_ifs <;> simp only [fun r w s => bystander_setWear r w s o l q v, fun n s => bystander_handNotice n s o l q v]

theorem bystander_degrade (r : Nat) : Bystander (fun s => s.degrade r) := fun s o l q v => by
  unfold State.degrade
  change (match (s.wearOf r).health with | .good => _ | .suspect => _ | .retired => _) = _
  dsimp only
  cases (s.wearOf r).health with
  | good => rfl
  | suspect => exact bystander_handNotice _ (s.setWear r _) o l q v
  | retired => rfl

theorem bystander_foldl {f : Nat → State → State} (hf : ∀ r, Bystander (f r)) (rs : List Nat) :
    Bystander (fun s => rs.foldl (fun t r => f r t) s) := fun s o l q v => by
  induction rs generalizing s with
  | nil => rfl
  | cons r rs ih =>
    simp only [List.foldl_cons, hf r s o l q v]
    exact ih (f r s)

/-- A fault taken by the fault record in the terms of claims (R125). -/
theorem recordFault_eq (f : FaultRecord) (e : FaultEntry) : recordFault f e = faultTaken f e := by
  unfold recordFault faultTaken
  cases f.first <;> rfl

theorem fault_of_none {s : State} (h : s.engine.transition = none) (k : FaultKind) (p : FaultPhase)
    (c : Option (Fin 8)) (rs : List Nat) : s.fault k p c rs = s := by
  simp only [State.fault, h]

/-- A fault of the transition in flight goes to the fault record and changes nothing else (R111, R123, R125). -/
theorem fault_of_some {s : State} {t : Transition} (h : s.engine.transition = some t) (k : FaultKind) (p : FaultPhase)
    (c : Option (Fin 8)) (rs : List Nat) :
    s.fault k p c rs =
      { s with
        engine.fault := faultTaken s.engine.fault
          { kind := k, phase := p, transition := t.kind, number := t.number, relay := rs.min?, chain := c,
            count := rs.length } } := by
  simp only [State.fault, h, recordFault_eq]

theorem bystander_fault (k : FaultKind) (p : FaultPhase) (c : Option (Fin 8)) (rs : List Nat) :
    Bystander (fun s => s.fault k p c rs) := fun s o l q v => by
  dsimp only
  cases h : s.engine.transition with
  | none => rw [fault_of_none h, fault_of_none (s := carrying s o l q v) h]
  | some t =>
    rw [fault_of_some h, fault_of_some (s := carrying s o l q v) h]
    rfl

theorem bystander_bypassGuard (t : Transition) : Bystander (fun s => s.bypassGuard t) := fun s =>
  bystander_advance (State.raise { s with engine.transition := some { t with hot := true } } .guardBypass)

theorem bystander_confirm (close : Bool) (r : Nat) : Bystander (fun s => s.confirm close r) := fun s =>
  bystander_addWear r (wearWeight s.isHot close s.control.params.hotWeight)
    { s with
      engine.actual := s.engine.actual.put .opened r (if close then .closed else .opened),
      engine.pendingOpen := s.engine.pendingOpen.filter (fun x => x ≠ r),
      engine.pendingClose := s.engine.pendingClose.filter (fun x => x ≠ r) }

/-! ### The coil chain unit -/

theorem bystander_setExchange (c : Nat) (x : Exchange) : Bystander (fun s => s.setExchange c x) := fun _ _ _ _ _ => rfl

theorem bystander_markUnknown (rs : List Nat) : Bystander (fun s => s.markUnknown rs) := fun _ _ _ _ _ => rfl

theorem bystander_chainFails (w : Wave) (c : Fin 8) (rs : List Nat) : Bystander (fun s => s.chainFails w c rs) := fun s =>
  bystander_fault .chain (if w.close then .closing else .opening) (some c) rs
    (State.markUnknown
      { s with
        coil.wave := some { w.mark rs .chainFailed with failed := true },
        coil.exchanges := s.coil.exchanges.put .idle c.val .failed } rs)

/-- The end of a wave by what it reports, the kind of its transition and whether an abort was noted (R112, R129, R140). -/
theorem endWave_eq (s : State) (w : Wave) :
    s.endWave w =
      if w.failed then
        if s.engine.transition.any (fun t => decide (t.kind = .safeOpen)) then (waveless s).lockOut
        else (waveless s).suspend .fault
      else if s.engine.abortNoted then (waveless s).suspend .aborted
      else (waveless s).advance := by
  unfold State.endWave
  cases s.engine.transition with
  | none => rfl
  | some t =>
    obtain ⟨kind, _, _, _, _, _⟩ := t
    cases kind <;> rfl

theorem bystander_endWave (w : Wave) : Bystander (fun s => s.endWave w) := fun s o l q v => by
  simp only [endWave_eq]
  change (if w.failed = true then
      if (s.engine.transition.any (fun t => decide (t.kind = .safeOpen))) = true then _ else _
    else if s.engine.abortNoted = true then _ else _) = _
  split_ifs
  · exact bystander_lockOut (waveless s) o l q v
  · exact bystander_suspend .fault (waveless s) o l q v
  · exact bystander_suspend .aborted (waveless s) o l q v
  · exact bystander_advance (waveless s) o l q v

theorem bystander_contactFails (w : Wave) : Bystander (fun s => s.contactFails w) := fun s o l q v => by
  have hfault := bystander_fault .contact (if w.close then .closing else .opening) none
    (w.sensing.map WaveRelay.relay)
    ({ s with coil.wave := some (Rules.unsensed w) }.markUnknown (w.sensing.map WaveRelay.relay)) o l q v
  have hfailed : Rules.contactFailed (carrying s o l q v) w = carrying (Rules.contactFailed s w) o l q v := by
    refine Eq.trans ?_ (bystander_foldl bystander_degrade (w.sensing.map WaveRelay.relay) _ o l q v)
    dsimp only at hfault ⊢
    rw [← hfault]
    rfl
  simp only [Rules.contactFails_eq, hfailed]
  exact bystander_endWave (Rules.unsensed w) _ o l q v

theorem bystander_senseProgress (now : Bool) : Bystander (fun s => s.senseProgress now) := fun s o l q v => by
  unfold State.senseProgress
  change (match s.coil.wave with | some w => _ | none => _) = _
  dsimp only
  cases s.coil.wave with
  | none => rfl
  | some w =>
    dsimp only
    cases w.stage with
    | writing | timedWait => rfl
    | sensing d reached =>
      dsimp only
      change (if w.sensing = [] then _ else if (_ && !(w.chains.any (fun c => (s.exchange c).inFlight))) = true then _ else _) = _
      split_ifs
      · exact bystander_endWave w s o l q v
      · exact bystander_contactFails _ s o l q v
      · rfl

theorem bystander_senseAttemptFails (c : Fin 8) (n : Nat) : Bystander (fun s => s.senseAttemptFails c n) := fun s o l q v => by
  unfold State.senseAttemptFails
  dsimp only
  split_ifs
  · rfl
  · change (match s.coil.wave with | some w => _ | none => _) = _
    cases s.coil.wave with
    | none => rfl
    | some w =>
      exact ((bystander_senseProgress false).comp (bystander_chainFails w c (w.withStatus c .sensing))) s o l q v

/-- Every chain of the wave has ended its write, one has latched, and the wave time is 0: the timed wait ends as it begins
(R109; log 14). -/
structure SkipsWait (s : State) (w : Wave) : Prop where
  wave : s.coil.wave = some w
  time : w.time = 0
  written : w.chains.any (fun c => (s.exchange c).isWriting) = false
  latched : w.chains.any (fun c => decide (s.exchange c = .latched)) = true

theorem writeProgress_of_skipsWait {s : State} {w : Wave} (h : SkipsWait s w) :
    s.writeProgress = s.endTimedWait { w with stage := .timedWait } := by
  simp [State.writeProgress, h.wave, h.time, h.written, h.latched]

theorem writeProgress_carrying {s : State} (h : ∀ w, ¬ SkipsWait s w) (o : Option Reading) (l : List (List Word))
    (q : List Instr) (v : Nat) : (carrying s o l q v).writeProgress = carrying s.writeProgress o l q v := by
  cases hw : s.coil.wave with
  | none => simp only [State.writeProgress, hw, show (carrying s o l q v).coil.wave = none from hw]
  | some w =>
    simp only [State.writeProgress, hw, show (carrying s o l q v).coil.wave = some w from hw,
      show ∀ c, (carrying s o l q v).exchange c = s.exchange c from fun _ => rfl]
    split_ifs with hwriting hlatched htime
    · rfl
    · exact absurd ⟨hw, htime, Bool.eq_false_of_not_eq_true hwriting, hlatched⟩ (h w)
    · rfl
    · exact bystander_endWave w s o l q v

/-- A third write attempt that fails goes on from a chain that has failed. -/
theorem writeAttemptFails_of_three_le {s : State} {w : Wave} (hw : s.coil.wave = some w) (c : Fin 8) {n : Nat}
    (hn : 3 ≤ n) :
    s.writeAttemptFails c n = (s.chainFails w c (w.withStatus c .writing)).writeProgress := by
  simp only [State.writeAttemptFails, Nat.not_lt.mpr hn, if_false, hw]

theorem writeAttemptFails_of_lt {c : Fin 8} {n : Nat} (s : State) (hn : n < 3) :
    s.writeAttemptFails c n = s.setExchange c (.writing (n + 1) .shifting) := by
  simp only [State.writeAttemptFails, hn, if_true]

/-- A chain that has latched, before the wave goes on (R88). -/
def chainLatched (s : State) (w : Wave) (c : Fin 8) : State :=
  State.setExchange { s with coil.wave := some (w.mark (w.withStatus c .writing) .latched) } c .latched

theorem chainLatches_eq {s : State} {w : Wave} (hw : s.coil.wave = some w) (c : Fin 8) :
    s.chainLatches c = (chainLatched s w c).writeProgress := by
  simp only [State.chainLatches, hw]
  rfl

/-! ### Frames leave in order (R169) -/

theorem Bystander.flows {f : State → State} (h : Bystander f) (s : State) : Flows 0 s (f s) :=
  flows_of_traffic (h.reading s) (h.sent s) (h.pending s)

theorem flows_confirmAll (s : State) (close : Bool) (rs : List Nat) : Flows 0 s (s.confirmAll close rs) := by
  unfold State.confirmAll
  refine List.foldlRecOn _ _ (motive := fun u : State => Flows 0 s u) (flows_of_traffic rfl rfl rfl) fun u hu r _ => ?_
  exact hu.trans (((bystander_confirm close r).flows u).trans (flows_fillOn _))

theorem flows_endTimedWait (s : State) (w : Wave) : Flows 0 s (s.endTimedWait w) := by
  rw [Rules.endTimedWait_eq, Rules.timedOut]
  refine Flows.trans ?_ ((bystander_senseProgress false).flows _)
  exact (flows_confirmAll _ w.close (Rules.latchedOf w .timed)).after rfl rfl rfl

theorem flows_writeProgress (s : State) : Flows 0 s s.writeProgress := by
  by_cases h : ∃ w, SkipsWait s w
  · obtain ⟨w, hw⟩ := h
    rw [writeProgress_of_skipsWait hw]
    exact flows_endTimedWait s _
  · have heq := writeProgress_carrying (not_exists.mp h) s.ring.reading s.ring.sent s.pending s.free
    rw [carrying_self] at heq
    rw [heq]
    exact flows_of_traffic rfl rfl rfl

theorem flows_chainEffect {s u : State} (h : ChainEffect s u) : Flows 0 s u := by
  cases h with
  | awaitsWriteEcho c n _ | awaitsSenseEcho c n _ | endsInterval c _ => exact flows_of_traffic rfl rfl rfl
  | latches c n _ =>
    cases hw : s.coil.wave with
    | none =>
      simp only [State.chainLatches, hw]
      exact .refl s
    | some w =>
      rw [chainLatches_eq hw]
      exact (flows_writeProgress _).after rfl rfl rfl
  | failsWrite c n _ =>
    by_cases hn : n < 3
    · rw [writeAttemptFails_of_lt s hn]
      exact (bystander_setExchange c _).flows s
    · cases hw : s.coil.wave with
      | none =>
        simp only [State.writeAttemptFails, hn, if_false, hw]
        exact .refl s
      | some w =>
        rw [writeAttemptFails_of_three_le hw c (Nat.not_lt.mp hn)]
        exact ((bystander_chainFails w c _).flows s).trans (flows_writeProgress _)
  | senses c n made _ =>
    cases hw : s.coil.wave with
    | none =>
      simp only [State.senseCompletes, hw]
      exact .refl s
    | some w =>
      rw [Rules.senseCompletes_eq c made hw]
      refine Flows.trans ?_ ((bystander_senseProgress false).flows _)
      refine Flows.trans ?_ ((bystander_setExchange c _).flows _)
      exact (flows_confirmAll { s with coil.wave := some (Rules.sensedWave w c made) } w.close
        (Rules.matchingOf w c made)).after rfl rfl rfl
  | failsSense c n _ => exact (bystander_senseAttemptFails c n).flows s
  | endsTimedWait w _ _ => exact flows_endTimedWait s w
  | reachesDeadline => exact (bystander_senseProgress true).flows s

theorem flows_storeWords {store : State → Nat → Word → State} {size : Nat} {topology : Bool}
    (h : SpaceStore store size topology) (s : State) (start : Nat) (ws : List Word) :
    Flows 0 s (storeWords store s start ws) := by
  obtain ⟨_, _, _, _, heq, -⟩ := Pending.storeWords_frame h s start ws
  rw [heq]
  exact flows_of_traffic rfl rfl rfl

/-- Whatever a command does to the other blocks sends no frame but the READ that was being filled. -/
theorem flows_effect {s u : State} (h : Effect s u) : Flows 0 s u := by
  have kept : ∀ {t : State}, t.ring.reading = s.ring.reading → t.ring.sent = s.ring.sent → t.pending = s.pending →
      Flows 0 s t := flows_of_traffic
  cases h with
  | stays => exact .refl s
  | accepts | takesNotices | validates | entersRun | entersConfigure | discards | notesAbort | acknowledges
  | raisesLinkCrc | movesLines | recordsLinkLoss => exact kept rfl rfl rfl
  | stores start ws hstore _ _ => exact flows_storeWords hstore s start ws
  | setsGate m _ => exact (bystander_setGateMode m).flows s
  | abortsGuard _ => exact (bystander_suspend .aborted).flows s
  | resumes t _ _ => exact (bystander_resumeTransition t).flows s
  | rollsBack t _ _ _ => exact (bystander_startRollback t).flows s
  | safeOpens _ _ => exact bystander_startSafeOpen.flows s
  | resets low timer source lost =>
    exact ((bystander_beginReset source lost).flows _).after rfl rfl rfl
  | endsReset r straps _ => exact (bystander_finishReset r straps).flows s
  | triggers => exact bystander_trigger.flows s
  | satisfiesGuard _ => exact bystander_advance.flows s
  | bypassesGuard t _ _ => exact (bystander_bypassGuard t).flows s
  | failsGuard _ => exact ((bystander_suspend .fault).comp (bystander_fault .guardTimeout .guard none [])).flows s
  | resolves ctx _ => exact (bystander_completeResolution ctx).flows s
  | chain hu => exact flows_chainEffect hu

end Sys2Proof.Traffic
end

section
/-! The block and the ring port: the queue, the frames that pass, and the answers of the frames that are acted on (R169 to
R176, R183). -/

namespace Sys2Proof.RingPort

open Sys2Proof.Machine Sys2Proof.Laws Sys2Proof.Effects Sys2Proof.Traffic

/-- Settles O1: `step` is `exec` on the front of the queue, and `finishRead` does nothing where no READ is being filled. -/
theorem stepRunsFrontCommand : Obligations.StepRunsFrontCommand := by
  refine ⟨fun c rest s hqueue => ?_, fun s hqueue hidle => ?_⟩
  · simp only [step, hqueue]
  · simp only [step, hqueue, finishRead_idle s hidle]

/-! ### What a command sends -/

theorem exec_total (c : Instr) (s : State) : ∃ t, exec c s = .next t := by
  cases c with
  | read e a space =>
    change ∃ t, execRead e a space s = .next t
    unfold execRead
    dsimp only
    split
    · split <;> exact ⟨_, rfl⟩
    all_goals exact ⟨_, rfl⟩
  | softReset e a =>
    change ∃ t, execSoftReset e a s = .next t
    unfold execSoftReset
    dsimp only
    split <;> exact ⟨_, rfl⟩
  | _ => exact ⟨_, rfl⟩

/-- Settles O2: beside its effect, which sends no frame of its own, a command sends at most one. -/
theorem commandsCompleteAndFramesLeaveInOrder : Obligations.CommandsCompleteAndFramesLeaveInOrder := by
  intro c s
  obtain ⟨t, hexec⟩ := exec_total c s
  obtain ⟨s', u, k, m, hs, hu, ht, hle⟩ := leads_exec hexec
  obtain ⟨hpending, ws, hws, hsent⟩ := (hs.flows.trans (flows_effect hu)).trans ht.flows
  refine ⟨t, hexec, hpending, ws, ?_, hsent⟩
  have hheld : held s = if s.ring.reading = none then 0 else 1 := rfl
  split_ifs at hheld ⊢ <;> omega

/-! ### Frames that are not acted on -/

/-- A frame that arrives is directed, or comes to the ring port by one of the five other rows. -/
theorem arriving_cases {c : Instr} {ws : List Word} (h : c.arrivingWords = some ws) :
    (∃ kind arg e, c.directed = some (kind, arg, e) ∧ ws = sealedWords kind arg e) ∨
      (∃ e arg, c = .poll e arg ∧ ws = sealedWords kindPoll arg e) ∨
      (∃ f, (c = .frameCrcFail f ∨ c = .frameNotForThisController f) ∧ ws = frameWords f) ∨
      c = .shortFrame ws ∨ c = .frameDuringReset ws := by
  cases c with
  | poll e arg =>
    cases h
    exact .inr (.inl ⟨e, arg, rfl, rfl⟩)
  | frameCrcFail f =>
    cases h
    exact .inr (.inr (.inl ⟨f, .inl rfl, rfl⟩))
  | frameNotForThisController f =>
    cases h
    exact .inr (.inr (.inl ⟨f, .inr rfl, rfl⟩))
  | shortFrame words =>
    cases h
    exact .inr (.inr (.inr (.inl rfl)))
  | frameDuringReset words =>
    cases h
    exact .inr (.inr (.inr (.inr rfl)))
  | resolutionComplete | trigEdge | qackHigh | guardTimeout | shiftComplete | writeEcho | senseEcho | noEcho | staleEcho
  | timedWaitEnd | senseIntervalEnd | senseDeadline | powerOn | rstnLow | rstnHigh | symbolLockLost | symbolLockReturn
  | linkLoss | resetEnd => simp [Instr.arrivingWords] at h
  | _ =>
    cases h
    exact .inl ⟨_, _, _, rfl, rfl⟩

/-- A directed frame with the disposition to be cut short goes no further. -/
theorem exec_directed_of_cutShort {c : Instr} {kind : Byte} {arg : Word} {e : Envelope} {s : State}
    (hc : c.directed = some (kind, arg, e)) (hidle : s.ring.reading = none) (hd : s.disposition e = .cutShort) :
    exec c s = .next s := by
  obtain ⟨handle, hexec⟩ := RefusedFrames.exec_directed_of_not_act hc hidle (by simp [hd])
  rw [hexec, State.receive, hd]

theorem exec_directed_of_pass {c : Instr} {kind : Byte} {arg : Word} {e : Envelope} {s : State}
    (hc : c.directed = some (kind, arg, e)) (hidle : s.ring.reading = none) (hd : s.disposition e = .pass) :
    exec c s = .next (s.send (sealedWords kind arg e)) := by
  obtain ⟨handle, hexec⟩ := RefusedFrames.exec_directed_of_not_act hc hidle (by simp [hd])
  rw [hexec, State.receive, hd]

theorem exec_directed_of_clash {c : Instr} {kind : Byte} {arg : Word} {e : Envelope} {s : State}
    (hc : c.directed = some (kind, arg, e)) (hidle : s.ring.reading = none) (hd : s.disposition e = .clash) :
    exec c s = .next (s.send (sealedWords kind arg (clashed e))) := by
  obtain ⟨handle, hexec⟩ := RefusedFrames.exec_directed_of_not_act hc hidle (by simp [hd])
  rw [hexec, State.receive, hd]

/-- The rows of the frames that no destination classifies, with no READ being filled. -/
theorem exec_poll (e : Envelope) (arg : Word) {s : State} (hidle : s.ring.reading = none) :
    exec (.poll e arg) s = .next
      (if s.control.lockLost then s
      else if s.control.resetting.isSome || isCorrupt e then s.send (sealedWords kindPoll arg e)
      else if e.length = 0 || lengthBad e then s.send (sealedWords kindPoll arg (refusedBroadcast e s.ring.address))
      else s.send (sealedWords kindPoll arg (s.polled e))) := by
  change execPoll e arg s = _
  rw [execPoll, finishRead_idle s hidle]

theorem exec_frameCrcFail (f : Frame) {s : State} (hidle : s.ring.reading = none) :
    exec (.frameCrcFail f) s = .next
      (if s.control.lockLost then s
      else if s.control.resetting.isSome then s.send (frameWords f)
      else (s.send (sealedWords f.kind f.arg (corrupted f.env))).raise .linkCrc) := by
  change execFrameCrcFail f s = _
  rw [execFrameCrcFail, finishRead_idle s hidle]

theorem exec_shortFrame (ws : List Word) {s : State} (hidle : s.ring.reading = none) :
    exec (.shortFrame ws) s = .next
      (if s.control.lockLost then s
      else if s.control.resetting.isSome then s.send ws
      else (s.send ws).raise .linkCrc) := by
  change execShortFrame ws s = _
  rw [execShortFrame, finishRead_idle s hidle]

theorem exec_frameNotForThisController (f : Frame) {s : State} (hidle : s.ring.reading = none) :
    exec (.frameNotForThisController f) s = .next (s.forward (frameWords f)) := by
  change execFrameNotForThisController f s = _
  rw [execFrameNotForThisController, finishRead_idle s hidle]

theorem exec_frameDuringReset (ws : List Word) {s : State} (hidle : s.ring.reading = none) :
    exec (.frameDuringReset ws) s = .next (s.forward ws) := by
  change execFrameDuringReset ws s = _
  rw [execFrameDuringReset, finishRead_idle s hidle]

/-- While symbol lock is lost no frame is received (R169; log 11). -/
theorem exec_arriving_of_lockLost {c : Instr} {ws : List Word} {s : State} (hc : c.arrivingWords = some ws)
    (hidle : s.ring.reading = none) (hlost : s.control.lockLost = true) : exec c s = .next s := by
  obtain ⟨kind, arg, e, hc, -⟩ | ⟨e, arg, rfl, -⟩ | ⟨f, rfl | rfl, -⟩ | rfl | rfl := arriving_cases hc
  · exact exec_directed_of_cutShort hc hidle (by simp [State.disposition, hlost])
  · rw [exec_poll _ _ hidle, if_pos hlost]
  · rw [exec_frameCrcFail _ hidle, if_pos hlost]
  · rw [exec_frameNotForThisController _ hidle, State.forward, if_pos hlost]
  · rw [exec_shortFrame _ hidle, if_pos hlost]
  · rw [exec_frameDuringReset _ hidle, State.forward, if_pos hlost]

/-- During a reset every frame is sent on unchanged (R183). -/
theorem exec_arriving_of_resetting {c : Instr} {ws : List Word} {s : State} (hc : c.arrivingWords = some ws)
    (hidle : s.ring.reading = none) (hreset : s.control.resetting ≠ none) (hlock : s.control.lockLost = false) :
    exec c s = .next (s.send ws) := by
  have hsome := Option.isSome_iff_ne_none.mpr hreset
  obtain ⟨kind, arg, e, hdirected, rfl⟩ | ⟨e, arg, rfl, rfl⟩ | ⟨f, rfl | rfl, rfl⟩ | rfl | rfl := arriving_cases hc
  · exact exec_directed_of_pass hdirected hidle (by simp [State.disposition, hlock, hsome])
  · simp [exec_poll _ _ hidle, hlock, hsome]
  · simp [exec_frameCrcFail _ hidle, hlock, hsome]
  · simp [exec_frameNotForThisController _ hidle, State.forward, hlock]
  · simp [exec_shortFrame _ hidle, hlock, hsome]
  · simp [exec_frameDuringReset _ hidle, State.forward, hlock]

/-- Settles O3: the ring port looks at the lock first and at a reset next, and a hard reset ends with its straps. -/
theorem framesPassDuringResetAndStopWithoutLock : Obligations.FramesPassDuringResetAndStopWithoutLock := by
  refine ⟨fun c ws s hc hidle hlost => exec_arriving_of_lockLost hc hidle hlost,
    fun c ws s hc hidle hreset hlock => exec_arriving_of_resetting hc hidle hreset hlock,
    fun r straps s hidle hr hsource hrstn hlock => ?_⟩
  have hmay : s.mayEndReset r = true := by simp [State.mayEndReset, hrstn, hlock]
  have hhard : r.source.isHard = true := by
    rcases hsource with h | h <;> rw [h] <;> rfl
  have hreading : (s.finishReset r straps).ring.reading = none := ((bystander_finishReset r straps).reading s).trans hidle
  have hexec : exec (.resetEnd straps) s = .next (s.finishReset r straps) := by
    change execResetEnd straps s = _
    simp only [execResetEnd, hr, hmay, if_true, fillOn_idle _ hreading]
  refine ⟨_, hexec, ?_, ?_⟩ <;> simp [State.finishReset, hhard]

/-! ### Frames that pass or are marked -/

theorem dest_eq_broadcast_iff (e : Envelope) : e.dest = 255 ↔ e.dest.toNat = 255 := by
  rw [← BitVec.toNat_inj]
  rfl

section

variable {s : State} {e : Envelope}

theorem disposition_of_corrupt (hlistens : s.Listens) (hmark : e.marks.getLsbD 0 = true) : s.disposition e = .pass := by
  obtain ⟨hlock, hreset, -⟩ := hlistens
  have hcorrupt : isCorrupt e = true := hmark
  simp [State.disposition, hlock, hcorrupt]

theorem disposition_of_other (hlistens : s.Listens) (haddress : e.dest.toNat ≠ s.ring.address.toNat)
    (hbroadcast : e.dest ≠ 255) : s.disposition e = .pass := by
  obtain ⟨hlock, hreset, -⟩ := hlistens
  have h255 : e.dest.toNat ≠ 255 := fun h => hbroadcast ((dest_eq_broadcast_iff e).mpr h)
  simp [State.disposition, hlock, haddress, h255]

theorem disposition_of_clash (hlistens : s.Listens) (hmark : e.marks.getLsbD 0 = false)
    (haddress : e.dest.toNat = s.ring.address.toNat) (hstatus : e.status ≠ 0) : s.disposition e = .clash := by
  obtain ⟨hlock, hreset, -⟩ := hlistens
  have hcorrupt : isCorrupt e = false := hmark
  unfold State.disposition
  rw [if_neg (by simp [hlock]), if_neg (by simp [hreset, hcorrupt]), if_pos haddress, if_pos hstatus]

end

/-- Settles O4: the frame's disposition decides, before its kind is looked at. -/
theorem framesNotActedOnPassOrAreMarked : Obligations.FramesNotActedOnPassOrAreMarked := by
  refine ⟨fun c kind arg e s hc hlistens hpass => ?directed, fun e arg s hlistens hmark => ?poll,
    fun f ws s hlock hidle => ⟨?other, ?reset⟩, fun c kind arg e s hc hlistens hmark haddress hstatus => ?clash⟩
  case directed =>
    refine exec_directed_of_pass hc hlistens.2.2 ?_
    rcases hpass with hmark | ⟨haddress, hbroadcast⟩
    · exact disposition_of_corrupt hlistens hmark
    · exact disposition_of_other hlistens haddress hbroadcast
  case poll =>
    obtain ⟨hlock, -, hidle⟩ := hlistens
    have hcorrupt : isCorrupt e = true := hmark
    simp [exec_poll _ _ hidle, hlock, hcorrupt]
  case other => rw [exec_frameNotForThisController f hidle, State.forward, hlock]; rfl
  case reset => rw [exec_frameDuringReset ws hidle, State.forward, hlock]; rfl
  case clash => exact exec_directed_of_clash hc hlistens.2.2 (disposition_of_clash hlistens hmark haddress hstatus)

/-- A frame sent on with LINK_CRC raised changes the ring port and the alerts alone. -/
theorem raise_linkCrc_frame {s : State} (hidle : s.ring.reading = none) (ws : List Word) :
    let t := (s.send ws).raise .linkCrc
    t = { s with ring := t.ring, alerts := t.alerts } ∧ t.ring.address = s.ring.address ∧
      t.ring.cursor = s.ring.cursor ∧ t.ring.reading = none ∧ t.ring.sent = s.ring.sent ++ [ws] ∧
      ∀ c, t.isRaised c = (s.isRaised c || decide (c = .linkCrc)) :=
  ⟨rfl, rfl, rfl, hidle, rfl, isRaised_raise (s.send ws) .linkCrc⟩

/-- Settles O6: both rows send the frame on and then raise LINK_CRC. -/
theorem damagedFramesRaiseLinkCrc : Obligations.DamagedFramesRaiseLinkCrc := by
  refine ⟨fun f s hlistens => ?damaged, fun ws s hlistens => ?short⟩
  all_goals obtain ⟨hlock, hreset, hidle⟩ := hlistens
  case damaged =>
    exact ⟨_, by rw [exec_frameCrcFail f hidle, hlock, hreset]; rfl, raise_linkCrc_frame hidle _⟩
  case short =>
    exact ⟨_, by rw [exec_shortFrame ws hidle, hlock, hreset]; rfl, raise_linkCrc_frame hidle _⟩

/-! ### Frames that are acted on -/

/-- The command is an ENTER_RUN, which may write the VALIDATION record where it is refused (R17). -/
def recordsValidation : Instr → Bool
  | .enterRun _ _ => true
  | _ => false

/-- A directed frame has been answered: one frame sent, with the answer of its handling in its envelope or in one that
differs in payload and filled count alone, where it was not broadcast. A frame that is not taken leaves what its handling
leaves. -/
structure Answered (c : Instr) (kind : Byte) (arg : Word) (e : Envelope) (b : Bool) (s t : State) (h : Handled)
    (e' : Envelope) : Prop where
  exec : exec c s = .next t
  answers : Answers (recordsValidation c) s h
  envelope : e' = e ∨ b = false ∧ h.answer.takes = true ∧ e' = { e with payload := e'.payload, filled := e'.filled }
  sent : t.ring.sent = s.ring.sent ++ [sealedWords kind arg (answered e' b s.ring.address h.answer)]
  reading : t.ring.reading = none
  refusal : h.answer.takes = false → t = h.state.send (sealedWords kind arg (answered e' b s.ring.address h.answer))

/-- A READ goes on being filled. -/
def GoesOnFilling (c : Instr) (arg : Word) (e : Envelope) (s : State) : Prop :=
  ∃ a space t r, c = .read e a space ∧ exec c s = .next t ∧ t.ring.sent = s.ring.sent ∧ t.ring.reading = some r ∧
    r.env = e ∧ r.arg = arg

section

variable {c : Instr} {kind : Byte} {arg : Word} {e : Envelope} {b : Bool} {s : State}

/-- An effect keeps what has been sent where no READ is being filled. -/
theorem Answers.traffic {records : Bool} {h : Handled} (ha : Answers records s h) (hidle : s.ring.reading = none) :
    h.state.ring.sent = s.ring.sent ∧ h.state.ring.reading = none := by
  obtain ⟨-, ws, hle, hsent⟩ := flows_effect ha.effect
  simp only [held, hidle, if_true, Nat.add_zero, Nat.le_zero, Nat.add_eq_zero_iff, List.length_eq_zero_iff,
    ite_eq_left_iff, Nat.one_ne_zero, imp_false, not_not] at hle
  obtain ⟨rfl, hreading⟩ := hle
  exact ⟨by simpa using hsent, hreading⟩

/-- A frame whose handling leaves its payload alone. -/
theorem answered_of_receivePlain (hacts : s.ActsOn e b) (f : State → Handled)
    (hexec : exec c s = .next (s.finishRead.receivePlain kind arg e (f s.finishRead)))
    (ha : Answers (recordsValidation c) s (f s)) : ∃ t h e', Answered c kind arg e b s t h e' := by
  have hidle : s.ring.reading = none := hacts.1.2.2
  obtain ⟨hsent, hreading⟩ := Answers.traffic ha hidle
  rw [finishRead_idle s hidle, receivePlain_of_actsOn s _ _ e b _ hacts] at hexec
  exact ⟨_, f s, e, hexec, ha, .inl rfl, by rw [send_sent, hsent], hreading, fun _ => rfl⟩

/-- A READ that is answered in its own event. -/
theorem answered_of_receiveRead {a : ReadArg} {space : Byte} (hacts : s.ActsOn e b) (f : State → Handled × Envelope)
    (hexec : exec c s = .next (s.finishRead.receiveRead e a space (f s.finishRead)))
    (ha : b = false → Answers (recordsValidation c) s (f s).1)
    (he : (f s).2 = e ∨ (f s).1.answer.takes = true ∧
      (f s).2 = { e with payload := (f s).2.payload, filled := (f s).2.filled }) :
    ∃ t h e', Answered c kindRead (readArgWord a space) e b s t h e' := by
  have hidle : s.ring.reading = none := hacts.1.2.2
  rw [finishRead_idle s hidle, State.receiveRead, receive_of_actsOn s _ _ e b _ hacts] at hexec
  cases b with
  | true =>
    exact ⟨_, .refuse .badArgument s, e, hexec, .refuses _ (by decide), .inl rfl, rfl, hidle, fun _ => rfl⟩
  | false =>
    obtain ⟨hsent, hreading⟩ := Answers.traffic (ha rfl) hidle
    exact ⟨_, (f s).1, (f s).2, hexec, ha rfl, he.imp_right fun h => ⟨rfl, h⟩, by rw [send_sent]; exact congrArg (· ++ _) hsent,
      hreading, fun _ => rfl⟩

end

/-- The reasons for which an addressed READ is refused (R181). -/
theorem checkRead_refused {s : State} {a : ReadArg} {space : Byte} {r : Reason} (h : s.checkRead a space = .refused r) :
    r = .badSpace ∨ r = .noCursor ∨ r = .badIndex := by
  have hstart : ∀ sp, s.readStart sp a = .error r → r = .noCursor ∨ r = .badIndex := by
    intro sp hsp
    unfold State.readStart at hsp
    split at hsp
    · split at hsp
      · split_ifs at hsp <;> cases hsp
        · exact .inr rfl
        · exact .inl rfl
      · cases hsp
        exact .inl rfl
    · split_ifs at hsp
      cases hsp
      exact .inr rfl
  unfold State.checkRead at h
  split at h
  · cases h
    exact .inl rfl
  · cases h
  · split at h <;> cases h
    exact .inr (hstart _ ‹_›)

/-- A READ that has passed its checks is answered with the words it takes, or goes on being filled. -/
theorem read_acted {e : Envelope} {b : Bool} {s : State} (hacts : s.ActsOn e b) (a : ReadArg) (space : Byte) :
    b = false ∧ GoesOnFilling (.read e a space) (readArgWord a space) e s ∨
      ∃ t h e', Answered (.read e a space) kindRead (readArgWord a space) e b s t h e' := by
  have hidle : s.ring.reading = none := hacts.1.2.2
  have hdisposition : s.finishRead.disposition e = .act b := by
    rw [finishRead_idle s hidle]
    exact (disposition_act_iff s e b hidle).mpr hacts
  have hexec : ∀ t, execRead e a space s = .next t → exec (.read e a space) s = .next t := fun _ h => h
  unfold execRead at hexec
  simp only [hdisposition] at hexec
  cases b with
  | true =>
    exact .inr (answered_of_receiveRead hacts (fun t => (.refuse .badArgument t, e)) (hexec _ rfl) nofun (.inl rfl))
  | false =>
    dsimp only at hexec
    cases hcheck : s.finishRead.checkRead a space with
    | refused r =>
      simp only [hcheck] at hexec
      have hcode : r.code.toNat ≤ 12 := by
        rcases checkRead_refused hcheck with rfl | rfl | rfl <;> decide
      exact .inr (answered_of_receiveRead hacts (fun t => (.refuse r t, e)) (hexec _ rfl)
        (fun _ => .refuses r hcode) (.inl rfl))
    | notices =>
      simp only [hcheck] at hexec
      exact .inr (answered_of_receiveRead hacts (fun t => t.takeNotices e) (hexec _ rfl)
        (fun _ => .takes rfl (.takesNotices _)) (.inr ⟨rfl, rfl⟩))
    | fill sp start =>
      simp only [hcheck] at hexec
      simp only [finishRead_idle s hidle] at hexec
      obtain ⟨m, -, -, htake⟩ := takeRead_cases s e a space sp start
      have hexec' := hexec _ rfl
      rw [htake, State.tookWords, State.holding] at hexec'
      split_ifs at hexec' with hfull
      · exact .inr ⟨_, ⟨.done, s⟩, filledWith e _, hexec', .takes rfl .stays, .inr ⟨rfl, rfl, rfl⟩, rfl, rfl, nofun⟩
      · exact .inl ⟨rfl, a, space, _, _, rfl, hexec', rfl, rfl, rfl, rfl⟩

/-- A SOFT_RESET frame is sent on before the reset it begins (R182, R193). -/
theorem exec_softReset {e : Envelope} {b : Bool} {s : State} (hacts : s.ActsOn e b) (a : ControlArg) :
    exec (.softReset e a) s =
      .next ((s.replies kindControl (controlArgWord a 10) e b .done).beginReset .softFrame false) := by
  have hidle : s.ring.reading = none := hacts.1.2.2
  change execSoftReset e a s = _
  have hanswer := ControlFrames.receiveControl_of_actsOn hacts a .softReset { answer := .done, state := s } rfl
  simp only [execSoftReset, finishRead_idle s hidle, hanswer, (disposition_act_iff s e b hidle).mpr hacts]
  rfl

theorem softReset_acted {e : Envelope} {b : Bool} {s : State} (hacts : s.ActsOn e b) (a : ControlArg) :
    ∃ t h e', Answered (.softReset e a) kindControl (controlArgWord a 10) e b s t h e' := by
  have hidle : s.ring.reading = none := hacts.1.2.2
  obtain ⟨hreading, hsent, -⟩ := (bystander_beginReset .softFrame false).keeps
    (s.replies kindControl (controlArgWord a 10) e b .done)
  exact ⟨_, ⟨.done, s⟩, e, exec_softReset hacts a, .takes rfl .stays, .inl rfl, hsent, hreading.trans hidle, nofun⟩

/-- All that a directed frame that is acted on can come to. -/
theorem directed_acted {c : Instr} {kind : Byte} {arg : Word} {e : Envelope} {b : Bool} {s : State}
    (hc : c.directed = some (kind, arg, e)) (hacts : s.ActsOn e b) :
    b = false ∧ GoesOnFilling c arg e s ∨ ∃ t h e', Answered c kind arg e b s t h e' := by
  cases c with
  | stepCheck e' a =>
    cases hc
    exact .inr (answered_of_receivePlain hacts (fun t => t.acceptStep a .check) rfl (answers_acceptStep s a .check))
  | stepStage e' a =>
    cases hc
    exact .inr (answered_of_receivePlain hacts (fun t => t.acceptStep a .stage) rfl (answers_acceptStep s a .stage))
  | stepApply e' a =>
    cases hc
    exact .inr (answered_of_receivePlain hacts (fun t => t.acceptStep a .apply) rfl (answers_acceptStep s a .apply))
  | stepBadAction e' a =>
    cases hc
    exact .inr (answered_of_receivePlain hacts State.refuseAction rfl (answers_refuseAction s))
  | writeRelayMap e' a =>
    cases hc
    exact .inr (answered_of_receivePlain hacts
      (fun t => t.writeTopology .relayMap a.start.toNat e.payload (fun _ _ => true) storeRelayMap) rfl
      (answers_writeTopology .relayMap))
  | writeClass e' a =>
    cases hc
    exact .inr (answered_of_receivePlain hacts
      (fun t => t.writeTopology .cls a.start.toNat e.payload (fun _ _ => true) storeClass) rfl
      (answers_writeTopology .cls))
  | writePorts e' a =>
    cases hc
    exact .inr (answered_of_receivePlain hacts
      (fun t => t.writeTopology .ports a.start.toNat e.payload (fun _ w => (PortEntry.ofWord w).isSome) storePort) rfl
      (answers_writeTopology .ports))
  | writeSiteEnable e' a =>
    cases hc
    exact .inr (answered_of_receivePlain hacts
      (fun t => t.writeTopology .siteEnable a.start.toNat e.payload (fun _ _ => true) storeSite) rfl
      (answers_writeTopology .sites))
  | writePinMap e' a =>
    cases hc
    exact .inr (answered_of_receivePlain hacts
      (fun t => t.writeTopology .pinMap a.start.toNat e.payload (fun _ w => (pinOfWord w).isSome) storePin) rfl
      (answers_writeTopology .pins))
  | writePortMap e' a =>
    cases hc
    exact .inr (answered_of_receivePlain hacts
      (fun t => t.writeTopology .portMap a.start.toNat e.payload (fun _ w => (portOfWord w).isSome) storePortMap) rfl
      (answers_writeTopology .portMap))
  | writeRouteDir e' a =>
    cases hc
    exact .inr (answered_of_receivePlain hacts
      (fun t => t.writeStore .routeDir a.start.toNat e.payload (fun _ w => (DirEntry.ofWord w).isSome)
        (fun u i => decide (i = u.dir)) storeDir) rfl
      (answers_writeStore .directory))
  | writeEntries e' a =>
    cases hc
    exact .inr (answered_of_receivePlain hacts
      (fun t => t.writeStore .entries a.start.toNat e.payload (fun _ w => (Entry.ofWord w).isSome)
        (fun u i => decide (u.first ≤ i ∧ i < u.first + u.count)) storeEntry) rfl
      (answers_writeStore .entries))
  | writeWear e' a =>
    cases hc
    exact .inr (answered_of_receivePlain hacts
      (fun t => t.writeWear a.start.toNat e.payload) rfl
      (answers_writeWear s _ _))
  | writeConfig e' a =>
    cases hc
    exact .inr (answered_of_receivePlain hacts
      (fun t => t.writeConfig a.start.toNat e.payload) rfl
      (answers_writeConfig s _ _))
  | write e' a space =>
    cases hc
    exact .inr (answered_of_receivePlain hacts
      (fun t => match Space.ofCode space with | none => .refuse .badSpace t | some _ => .refuse .readOnly t) rfl
      (answers_write s space))
  | enterRun e' a =>
    cases hc
    exact .inr (answered_of_receivePlain hacts State.enterRun rfl (answers_enterRun hacts.1.2.1))
  | enterConfigure e' a =>
    cases hc
    exact .inr (answered_of_receivePlain hacts State.enterConfigure rfl (answers_enterConfigure s))
  | setGate e' a =>
    cases hc
    exact .inr (answered_of_receivePlain hacts (fun t => t.setGate a.operand) rfl (answers_setGate s a.operand))
  | abort e' a =>
    cases hc
    exact .inr (answered_of_receivePlain hacts State.abort rfl (answers_abort s))
  | resume e' a =>
    cases hc
    exact .inr (answered_of_receivePlain hacts State.resume rfl (answers_resume s))
  | rollback e' a =>
    cases hc
    exact .inr (answered_of_receivePlain hacts State.rollback rfl (answers_rollback s))
  | safeOpen e' a =>
    cases hc
    exact .inr (answered_of_receivePlain hacts State.safeOpen rfl (answers_safeOpen s))
  | discardStaged e' a =>
    cases hc
    exact .inr (answered_of_receivePlain hacts State.discardStaged rfl (answers_discardStaged s))
  | ackAlert e' a =>
    cases hc
    exact .inr (answered_of_receivePlain hacts
      (fun t => t.ackAlert a.operand) rfl
      (.takes rfl (.acknowledges a.operand)))
  | controlBadOperation e' a operation =>
    cases hc
    exact .inr (answered_of_receivePlain hacts (.refuse .badArgument) rfl (.refuses _ (by decide)))
  | read e' a space =>
    cases hc
    exact read_acted hacts a space
  | readNotices e' a =>
    cases hc
    exact .inr (answered_of_receiveRead hacts (fun t => t.takeNotices e) rfl (fun _ => .takes rfl (.takesNotices _))
      (.inr ⟨rfl, rfl⟩))
  | softReset e' a =>
    cases hc
    exact .inr (softReset_acted hacts a)
  | _ => cases hc

theorem code_pos (r : Reason) : 1 ≤ r.code.toNat := by
  cases r <;> decide

theorem code_le (r : Reason) : r.code.toNat ≤ 16 := by
  cases r <;> decide

theorem enterRun_of_records {c : Instr} {kind : Byte} {arg : Word} {e : Envelope}
    (hc : c.directed = some (kind, arg, e)) (h : recordsValidation c = true) : ∃ a, c = .enterRun e a := by
  cases c with
  | enterRun e' a =>
    cases hc
    exact ⟨a, rfl⟩
  | _ => cases h

theorem countUp_eq (c : Byte) : countUp c = if c = 255 then 255 else c + 1 := rfl

/-- Settles O7: a broadcast frame's reply is its own envelope with the count or the bit that its answer stands for. -/
theorem broadcastFramesCountOrRefuse : Obligations.BroadcastFramesCountOrRefuse := by
  intro c kind arg e s hc hacts
  obtain ⟨hfalse, -⟩ | ⟨t, h, e', ha⟩ := directed_acted hc hacts
  · cases hfalse
  · obtain rfl : e' = e := ha.envelope.resolve_right nofun
    refine ⟨t, _, ha.exec, ha.sent, ?_⟩
    cases htakes : h.answer.takes with
    | true => exact .inl (by simp only [answered, htakes, if_true, countUp_eq])
    | false => exact .inr (by simp [answered, htakes, refusedBroadcast])

/-- Settles O8: an addressed frame's reply is an envelope with the status and reason of its answer, and a handling that
does not take the frame leaves the state as it was. -/
theorem addressedFramesAnswerAndRefusalsChangeNothing : Obligations.AddressedFramesAnswerAndRefusalsChangeNothing := by
  intro c kind arg e s hc hacts
  obtain ⟨-, hfilling⟩ | ⟨t, h, e', ha⟩ := directed_acted hc hacts
  · exact .inl hfilling
  · have hkept : e'.accepts = e.accepts ∧ e'.refusals = e.refusals ∧ e'.marks = e.marks := by
      obtain rfl | ⟨-, -, heq⟩ := ha.envelope
      · exact ⟨rfl, rfl, rfl⟩
      · rw [heq]
        exact ⟨rfl, rfl, rfl⟩
    obtain ⟨haccepts, hrefusals, hmarks⟩ := hkept
    refine .inr ⟨t, _, ha.exec, ha.sent, ha.reading, haccepts, hrefusals, hmarks, ?_⟩
    have hrefusal := ha.refusal
    cases ha.answers with
    | @takes a u htakes _ =>
      cases a with
      | done => exact .inl ⟨.inl rfl, rfl⟩
      | accepted => exact .inl ⟨.inr rfl, rfl⟩
      | busy | refused => cases htakes
    | busy r hcode =>
      exact .inr ⟨.inl ⟨rfl, hcode, code_le r⟩, s.topology.validation, .inl rfl, hrefusal rfl⟩
    | refuses r hcode =>
      exact .inr ⟨.inr ⟨rfl, code_pos r, hcode⟩, s.topology.validation, .inl rfl, hrefusal rfl⟩
    | invalid hrecords =>
      exact .inr ⟨.inr ⟨rfl, code_pos .invalidTables, Nat.le_of_ble_eq_true rfl⟩, s.validate, .inr (enterRun_of_records hc hrecords), hrefusal rfl⟩

end Sys2Proof.RingPort
end

section
/-! WRITE frames to the topology spaces, to the route store and to CONFIG: the words that each space stores, and the order
in which a write is refused (R14, R33, R178, R188). -/

namespace Sys2Proof.SpaceWrites

open Sys2Proof.Machine Sys2Proof.Laws Sys2Proof.WriteWords

/-! ### The words of the entries -/

/-- A field of a word is 0 exactly where each of its bits is. -/
theorem extract_eq_zero_iff (w : Word) (lo n : Nat) :
    w.extractLsb' lo n = 0 ↔ ∀ k, k < n → w.getLsbD (lo + k) = false := by
  constructor
  · intro h k hk
    simpa [hk] using congrArg (fun v => v.getLsbD k) h
  · intro h
    apply BitVec.eq_of_getLsbD_eq
    intro k hk
    simp [hk, h k hk]

/-- A masked word has a value exactly where each bit has. -/
theorem and_eq_iff (w m v : Word) :
    w &&& m = v ↔ ∀ k, k < 32 → (w.getLsbD k && m.getLsbD k) = v.getLsbD k := by
  constructor
  · rintro rfl k _
    rw [BitVec.getLsbD_and]
  · intro h
    apply BitVec.eq_of_getLsbD_eq
    intro k hk
    rw [BitVec.getLsbD_and, h k hk]

theorem relayWord_ofWord (w : Word) : (RelayEntry.ofWord w).word = w &&& 0x010FFFFF := by
  apply BitVec.eq_of_getLsbD_eq
  intro i hi
  simp only [RelayEntry.word, RelayEntry.ofWord, BitVec.getLsbD_append, BitVec.getLsbD_extractLsb', BitVec.getLsbD_ofBool,
    BitVec.getLsbD_and, BitVec.getLsbD_zero]
  interval_cases i <;> simp

theorem siteWord_getLsbD (w : Word) : (0#31 ++ BitVec.ofBool (w.getLsbD 0) : Word) = w &&& 1 := by
  apply BitVec.eq_of_getLsbD_eq
  intro i hi
  simp only [BitVec.getLsbD_append, BitVec.getLsbD_ofBool, BitVec.getLsbD_and, BitVec.getLsbD_zero]
  interval_cases i <;> simp

theorem code_of_roleOfCode {c : BitVec 2} {r : Role} (h : Role.ofCode c = some r) : r.code = c := by
  revert c r
  decide

theorem roleOfCode_isSome_iff (c : BitVec 2) : (Role.ofCode c).isSome = true ↔ c ≠ 3 := by
  revert c
  decide

theorem portEntry_isSome_iff (w : Word) : (PortEntry.ofWord w).isSome = true ↔ IsRoleWord w := by
  rw [PortEntry.ofWord, Option.isSome_map, roleOfCode_isSome_iff]

theorem portWord_ofWord {w : Word} {p : PortEntry} (h : PortEntry.ofWord w = some p) : p.word = w &&& 0x13 := by
  obtain ⟨r, hr, rfl⟩ := Option.map_eq_some_iff.mp h
  apply BitVec.eq_of_getLsbD_eq
  intro i hi
  simp only [PortEntry.word, code_of_roleOfCode hr, BitVec.getLsbD_append, BitVec.getLsbD_extractLsb',
    BitVec.getLsbD_ofBool, BitVec.getLsbD_and, BitVec.getLsbD_zero]
  interval_cases i <;> simp

/-- The low byte of a word, as a number. -/
theorem lowByte_toNat (w : Word) : (w.extractLsb' 0 8).toNat = (w &&& 0xFF).toNat := by
  rw [BitVec.toNat_and]
  simpa using (Nat.and_two_pow_sub_one_eq_mod w.toNat 8).symm

theorem pinOfWord_isSome_iff (w : Word) : (pinOfWord w).isSome = true ↔ IsPinWord w := by
  unfold pinOfWord IsPinWord
  generalize (w.extractLsb' 0 8).toNat = n
  dsimp only
  split_ifs <;> simp <;> omega

theorem pinWord_ofWord {w : Word} {v : Option (BitVec 6)} (h : pinOfWord w = some v) : pinWord v = w &&& 0xFF := by
  unfold pinOfWord at h
  dsimp only at h
  have hbyte := lowByte_toNat w
  apply BitVec.eq_of_toNat_eq
  rw [← hbyte]
  split_ifs at h with hpin hnone
  · cases h
    rw [pinWord, NoticesSpace.toNat_append_eq]
    simp only [BitVec.extractLsb'_toNat, BitVec.toNat_zero, Nat.shiftRight_zero] at hpin ⊢
    omega
  · cases h
    rw [hnone]
    rfl

theorem portOfWord_isSome_iff (w : Word) : (portOfWord w).isSome = true ↔ IsPortWord w := by
  unfold portOfWord IsPortWord
  generalize (w.extractLsb' 0 8).toNat = n
  dsimp only
  split_ifs <;> simp <;> omega

theorem portMapWord_ofWord {w : Word} {v : Option (BitVec 5)} (h : portOfWord w = some v) : portWord v = w &&& 0xFF := by
  unfold portOfWord at h
  dsimp only at h
  have hbyte := lowByte_toNat w
  apply BitVec.eq_of_toNat_eq
  rw [← hbyte]
  split_ifs at h with hport hnone
  · cases h
    rw [portWord, BitVec.toNat_ofNat, BitVec.toNat_ofNat]
    omega
  · cases h
    rw [hnone]
    rfl

theorem dirEntry_isSome_iff (w : Word) : (DirEntry.ofWord w).isSome = true ↔ IsDirWord w := by
  unfold DirEntry.ofWord IsDirWord
  split_ifs with h
  · exact iff_of_true rfl h
  · exact iff_of_false nofun h

theorem dirWord_ofWord {w : Word} {d : DirEntry} (h : DirEntry.ofWord w = some d) : d.word = w &&& 0x607F07FF := by
  unfold DirEntry.ofWord at h
  split_ifs at h
  cases h
  apply BitVec.eq_of_getLsbD_eq
  intro i hi
  simp only [DirEntry.word, BitVec.getLsbD_append, BitVec.getLsbD_extractLsb', BitVec.getLsbD_ofBool, BitVec.getLsbD_and,
    BitVec.getLsbD_zero]
  interval_cases i <;> simp

theorem field_of_trunkOfField {f : BitVec 5} {t : Trunk} (h : Trunk.ofField f = some t) : t.field = f := by
  have hall : ∀ f : BitVec 5, ∀ t ∈ Trunk.ofField f, t.field = f := by decide
  exact hall f t h

theorem trunkOfField_isSome_iff (f : BitVec 5) : (Trunk.ofField f).isSome = true ↔ f.toNat ≤ 15 ∨ f.toNat = 31 := by
  revert f
  decide

/-- A word encodes a DIRECT entry by its top bit and no bit outside its relay field. -/
theorem isDirect_iff (w : Word) : w &&& 0xFFFFFC00 = 0x80000000 ↔ w.getLsbD 31 = true ∧ w.extractLsb' 10 21 = 0 := by
  rw [and_eq_iff, extract_eq_zero_iff]
  constructor
  · refine fun h => ⟨by simpa using h 31 (by decide), fun k hk => ?_⟩
    have hbit := h (10 + k) (by omega)
    interval_cases k <;> simpa using hbit
  · rintro ⟨htop, hrest⟩ k hk
    have hmask : ∀ k < 32, k = 31 ∨ (0x80000000 : Word).getLsbD k = false ∧
        (10 ≤ k ∧ k < 31 ∨ (0xFFFFFC00 : Word).getLsbD k = false) := by decide
    obtain rfl | ⟨hvalue, ⟨hle, hlt⟩ | hout⟩ := hmask k hk
    · simpa using htop
    · have hbit := hrest (k - 10) (by omega)
      rw [Nat.add_sub_cancel' hle] at hbit
      rw [hbit, hvalue, Bool.false_and]
    · rw [hout, hvalue, Bool.and_false]

/-- And a PATH entry by no bit outside its fields and a trunk that there is. -/
theorem isPath_iff (w : Word) :
    w &&& 0xFFE0F0E0 = 0 ↔
      w.getLsbD 31 = false ∧ w.extractLsb' 5 3 = 0 ∧ w.extractLsb' 12 4 = 0 ∧ w.extractLsb' 21 10 = 0 := by
  simp only [and_eq_iff, extract_eq_zero_iff]
  constructor
  · intro h
    refine ⟨by simpa using h 31 (by decide), fun k hk => ?_, fun k hk => ?_, fun k hk => ?_⟩
    · have hbit := h (5 + k) (by omega)
      interval_cases k <;> simpa using hbit
    · have hbit := h (12 + k) (by omega)
      interval_cases k <;> simpa using hbit
    · have hbit := h (21 + k) (by omega)
      interval_cases k <;> simpa using hbit
  · rintro ⟨htop, hlow, hmid, hhigh⟩ k hk
    have hmask : ∀ k < 32, k = 31 ∨ 5 ≤ k ∧ k < 8 ∨ 12 ≤ k ∧ k < 16 ∨ 21 ≤ k ∧ k < 31 ∨
        (0xFFE0F0E0 : Word).getLsbD k = false := by decide
    have field : ∀ lo n, (∀ j < n, w.getLsbD (lo + j) = false) → lo ≤ k → k < lo + n → w.getLsbD k = false :=
      fun lo n h hle hlt => Nat.add_sub_cancel' hle ▸ h (k - lo) (by omega)
    have hbit : w.getLsbD k = false ∨ (0xFFE0F0E0 : Word).getLsbD k = false := by
      obtain rfl | ⟨hle, hlt⟩ | ⟨hle, hlt⟩ | ⟨hle, hlt⟩ | hout := hmask k hk
      · exact .inl htop
      · exact .inl (field 5 3 hlow hle hlt)
      · exact .inl (field 12 4 hmid hle hlt)
      · exact .inl (field 21 10 hhigh hle hlt)
      · exact .inr hout
    exact (Bool.and_eq_false_iff.mpr hbit).trans BitVec.getLsbD_zero.symm

theorem entry_isSome_iff (w : Word) : (Entry.ofWord w).isSome = true ↔ IsEntryWord w := by
  rw [IsEntryWord, isDirect_iff, isPath_iff, ← trunkOfField_isSome_iff, Entry.ofWord]
  cases htop : w.getLsbD 31
  · split_ifs <;> simp_all
  · split_ifs <;> simp_all

theorem entryWord_ofWord {w : Word} {x : Entry} (h : Entry.ofWord w = some x) : x.word = w := by
  unfold Entry.ofWord at h
  split_ifs at h with htop hdirect hpath
  · cases h
    rw [extract_eq_zero_iff] at hdirect
    apply BitVec.eq_of_getLsbD_eq
    intro i hi
    have hmid : 10 ≤ i → i < 31 → w.getLsbD i = false := fun hle hlt => by
      simpa [Nat.add_sub_cancel' hle] using hdirect (i - 10) (by omega)
    simp only [Entry.word, BitVec.getLsbD_append, BitVec.getLsbD_extractLsb', BitVec.getLsbD_zero]
    interval_cases i <;> simp_all
  · obtain ⟨t, ht, rfl⟩ := Option.map_eq_some_iff.mp h
    obtain ⟨hlow, hmid, hhigh⟩ := hpath
    rw [extract_eq_zero_iff] at hlow hmid hhigh
    have field : ∀ lo n i, (∀ j < n, w.getLsbD (lo + j) = false) → lo ≤ i → i < lo + n → w.getLsbD i = false :=
      fun lo n i h hle hlt => Nat.add_sub_cancel' hle ▸ h (i - lo) (by omega)
    apply BitVec.eq_of_getLsbD_eq
    intro i hi
    have h1 := field 5 3 i hlow
    have h2 := field 12 4 i hmid
    have h3 := field 21 10 i hhigh
    simp only [Entry.word, field_of_trunkOfField ht, BitVec.getLsbD_append, BitVec.getLsbD_extractLsb', BitVec.getLsbD_zero]
    clear hlow hmid hhigh field
    interval_cases i <;> simp_all

end Sys2Proof.SpaceWrites
end

section
/-! The stores of the topology spaces, the route store and CONFIG, and the checks that stand before them (R14, R33, R178,
R188). -/

namespace Sys2Proof.SpaceWrites

open Sys2Proof.Machine Sys2Proof.Laws Sys2Proof.WriteWords

/-! ### One word stored -/

/-- What storing a word at an index of a space does: it replaces the table that `put` names and nothing else, and of the
words of the space it shows at its own index alone, as `stored` gives it, where it can be stored. -/
structure Stores {α : Type} (sp : Space) (store : State → Nat → Word → State) (get : State → α)
    (put : State → α → State) (storable : Nat → Word → Bool) (stored : Nat → Word → Word) : Prop where
  frame : ∀ s i w, ∃ m, store s i w = put s m
  put_put : ∀ s m m', put (put s m) m' = put s m'
  put_get : ∀ s, put s (get s) = s
  same : ∀ s i w, i < sp.size → storable i w = true → (store s i w).wordAt sp i = stored i w
  other : ∀ s i w j, i < sp.size → j < sp.size → j ≠ i → (store s i w).wordAt sp j = s.wordAt sp j

/-- A word stored where a space of `size` words has one. -/
def storeWithin (size : Nat) (store : State → Nat → Word → State) (s : State) (i : Nat) (w : Word) : State :=
  if i < size then store s i w else s

/-- A word of a space of `size` words. -/
def wordWithin (sp : Space) (s : State) (i : Nat) : Word := if i < sp.size then s.wordAt sp i else 0

/-- Words that fit a space are stored where it has them. -/
theorem storeWords_eq_within {size start : Nat} {ws : List Word} (store : State → Nat → Word → State)
    (hfits : Fits size start ws) (s : State) :
    storeWords store s start ws = storeWords (storeWithin size store) s start ws := by
  induction ws generalizing s start with
  | nil => rfl
  | cons w ws ih =>
    have hle : start + (ws.length + 1) ≤ size := hfits.resolve_left (by simp)
    have hone : storeWithin size store s start w = store s start w := if_pos (by omega)
    rw [storeWords, storeWords, hone]
    exact ih (.inr (by omega)) _

theorem everyWord_within {size start : Nat} {ws : List Word} {p : Nat → Word → Bool} (hfits : Fits size start ws)
    (hws : everyWord p start ws = true) : everyWord (fun i w => decide (i < size) && p i w) start ws = true := by
  rw [everyWord_iff] at hws ⊢
  intro k hk
  have hle : start + ws.length ≤ size := hfits.resolve_left (List.ne_nil_of_length_pos (by omega))
  rw [hws k hk, Bool.and_true, decide_eq_true_eq]
  omega

section

variable {α : Type} {sp : Space} {store : State → Nat → Word → State} {get : State → α} {put : State → α → State}
  {storable : Nat → Word → Bool} {stored : Nat → Word → Word}

theorem Stores.storeWords_frame (h : Stores sp store get put storable stored) (s : State) (start : Nat)
    (ws : List Word) : ∃ m, storeWords store s start ws = put s m := by
  induction ws generalizing s start with
  | nil => exact ⟨get s, (h.put_get s).symm⟩
  | cons w ws ih =>
    obtain ⟨first, hfirst⟩ := h.frame s start w
    obtain ⟨rest, hrest⟩ := ih (store s start w) (start + 1)
    exact ⟨rest, by rw [storeWords, hrest, hfirst, h.put_put]⟩

/-- Storing words one by one changes one table, each word of which reads as stored where it was written. -/
theorem Stores.storedAt (h : Stores sp store get put storable stored) (s : State) {start : Nat} {ws : List Word}
    (hfits : Fits sp.size start ws) (hws : everyWord storable start ws = true) :
    ∃ m t, t = put s m ∧ storeWords store s start ws = t ∧
      StoredAt sp.size (s.wordAt sp) (t.wordAt sp) stored start ws := by
  have hother : ∀ s i w j, j ≠ i → wordWithin sp (storeWithin sp.size store s i w) j = wordWithin sp s j := by
    intro s i w j hj
    unfold wordWithin storeWithin
    split_ifs with hjlt hilt
    · exact h.other s i w j hilt hjlt hj
    · rfl
    · rfl
  have hsame : ∀ s i w, (decide (i < sp.size) && storable i w) = true →
      wordWithin sp (storeWithin sp.size store s i w) i = stored i w := by
    intro s i w hp
    obtain ⟨hlt, hp⟩ := Bool.and_eq_true_iff.mp hp
    have hlt : i < sp.size := decide_eq_true_iff.mp hlt
    simp only [wordWithin, storeWithin, hlt, if_true]
    exact h.same s i w hlt hp
  obtain ⟨m, hm⟩ := h.storeWords_frame s start ws
  refine ⟨m, _, hm, rfl, fun k hk => ?_, fun i hi hout => ?_⟩
  · have hinside := read_storeWords_inside (read := wordWithin sp) hother hsame s start ws
      (everyWord_within hfits hws) k hk
    have hle : start + ws.length ≤ sp.size := hfits.resolve_left (List.ne_nil_of_length_pos (by omega))
    rw [← storeWords_eq_within store hfits] at hinside
    simpa only [wordWithin, if_pos (show start + k < sp.size by omega)] using hinside
  · have houtside := read_storeWords_outside (read := wordWithin sp) hother s start ws i hout
    rw [← storeWords_eq_within store hfits] at houtside
    simpa only [wordWithin, if_pos hi] using houtside

end

theorem stores_relayMap :
    Stores .relayMap storeRelayMap (fun s => s.topology.relayMap) (fun s m => { s with topology.relayMap := m })
      (fun _ _ => true) (fun _ w => w &&& 0x010FFFFF) where
  frame _ _ _ := ⟨_, rfl⟩
  put_put _ _ _ := rfl
  put_get _ := rfl
  same s i w _ _ := by simp only [State.wordAt, storeRelayMap, table_get_put_same, relayWord_ofWord]
  other s i w j _ _ hj := by simp only [State.wordAt, storeRelayMap, table_get_put_other _ _ _ _ _ hj]

theorem stores_ports :
    Stores .ports storePort (fun s => s.topology.ports) (fun s m => { s with topology.ports := m })
      (fun _ w => (PortEntry.ofWord w).isSome) (fun _ w => w &&& 0x13) where
  frame s i w := by
    unfold storePort
    split
    · exact ⟨_, rfl⟩
    · exact ⟨s.topology.ports, rfl⟩
  put_put _ _ _ := rfl
  put_get _ := rfl
  same s i w _ hw := by
    obtain ⟨p, hp⟩ := Option.isSome_iff_exists.mp hw
    simp only [State.wordAt, storePort, hp, table_get_put_same, portWord_ofWord hp]
  other s i w j _ _ hj := by
    unfold storePort
    split
    · simp only [State.wordAt, table_get_put_other _ _ _ _ _ hj]
    · rfl

theorem stores_sites :
    Stores .siteEnable storeSite (fun s => s.topology.sites) (fun s m => { s with topology.sites := m })
      (fun _ _ => true) (fun _ w => w &&& 1) where
  frame _ _ _ := ⟨_, rfl⟩
  put_put _ _ _ := rfl
  put_get _ := rfl
  same s i w _ _ := by simp only [State.wordAt, storeSite, table_get_put_same, siteWord_getLsbD]
  other s i w j _ _ hj := by simp only [State.wordAt, storeSite, table_get_put_other _ _ _ _ _ hj]

theorem stores_pins :
    Stores .pinMap storePin (fun s => s.topology.pinMap) (fun s m => { s with topology.pinMap := m })
      (fun _ w => (pinOfWord w).isSome) (fun _ w => w &&& 0xFF) where
  frame s i w := by
    unfold storePin
    split
    · exact ⟨_, rfl⟩
    · exact ⟨s.topology.pinMap, rfl⟩
  put_put _ _ _ := rfl
  put_get _ := rfl
  same s i w _ hw := by
    obtain ⟨p, hp⟩ := Option.isSome_iff_exists.mp hw
    simp only [State.wordAt, storePin, hp, table_get_put_same, pinWord_ofWord hp]
  other s i w j _ _ hj := by
    unfold storePin
    split
    · simp only [State.wordAt, table_get_put_other _ _ _ _ _ hj]
    · rfl

theorem stores_portMap :
    Stores .portMap storePortMap (fun s => s.topology.portMap) (fun s m => { s with topology.portMap := m })
      (fun _ w => (portOfWord w).isSome) (fun _ w => w &&& 0xFF) where
  frame s i w := by
    unfold storePortMap
    split
    · exact ⟨_, rfl⟩
    · exact ⟨s.topology.portMap, rfl⟩
  put_put _ _ _ := rfl
  put_get _ := rfl
  same s i w _ hw := by
    obtain ⟨p, hp⟩ := Option.isSome_iff_exists.mp hw
    simp only [State.wordAt, storePortMap, hp, table_get_put_same, portMapWord_ofWord hp]
  other s i w j _ _ hj := by
    unfold storePortMap
    split
    · simp only [State.wordAt, table_get_put_other _ _ _ _ _ hj]
    · rfl

theorem stores_directory :
    Stores .routeDir storeDir (fun s => s.store.directory) (fun s m => { s with store.directory := m })
      (fun _ w => (DirEntry.ofWord w).isSome) (fun _ w => w &&& 0x607F07FF) where
  frame s i w := by
    unfold storeDir
    split
    · exact ⟨_, rfl⟩
    · exact ⟨s.store.directory, rfl⟩
  put_put _ _ _ := rfl
  put_get _ := rfl
  same s i w _ hw := by
    obtain ⟨d, hd⟩ := Option.isSome_iff_exists.mp hw
    simp only [State.wordAt, storeDir, hd, table_get_put_same, dirWord_ofWord hd]
  other s i w j _ _ hj := by
    unfold storeDir
    split
    · simp only [State.wordAt, table_get_put_other _ _ _ _ _ hj]
    · rfl

theorem stores_entries :
    Stores .entries storeEntry (fun s => s.store.pool) (fun s m => { s with store.pool := m })
      (fun _ w => (Entry.ofWord w).isSome) (fun _ w => w) where
  frame s i w := by
    unfold storeEntry
    split
    · exact ⟨_, rfl⟩
    · exact ⟨s.store.pool, rfl⟩
  put_put _ _ _ := rfl
  put_get _ := rfl
  same s i w _ hw := by
    obtain ⟨x, hx⟩ := Option.isSome_iff_exists.mp hw
    simp only [State.wordAt, storeEntry, hx, table_get_put_same, entryWord_ofWord hx]
  other s i w j _ _ hj := by
    unfold storeEntry
    split
    · simp only [State.wordAt, table_get_put_other _ _ _ _ _ hj]
    · rfl

/-! ### CLASS and CONFIG, which clamp (R67, R188) -/

/-- Of the four words of a class the one written reads back with its clamping. -/
theorem classWord_written_same (c : ClassEntry) (i : Nat) (w : Word) :
    (c.written (i % 4) w).word (i % 4) = clampedClass i w := by
  have hlt : i % 4 < 4 := Nat.mod_lt _ (by decide)
  unfold clampedClass
  generalize i % 4 = k at hlt ⊢
  have halves : (w.extractLsb' 16 16 ++ w.extractLsb' 0 16 : Word) = w := by
    apply BitVec.eq_of_getLsbD_eq
    intro j hj
    simp only [BitVec.getLsbD_append, BitVec.getLsbD_extractLsb']
    interval_cases j <;> simp
  have hmode : (if w.getLsbD 24 = true then ConfirmMode.sensed else .timed).bit = w.extractLsb' 24 1 := by
    apply BitVec.eq_of_getLsbD_eq
    intro j hj
    obtain rfl : j = 0 := by omega
    cases h : w.getLsbD 24 <;> simpa [ConfirmMode.bit] using h
  interval_cases k
  · exact halves
  · exact halves
  · simp only [ClassEntry.written, ClassEntry.word, hmode]
  · rfl

/-- And every other word of the class reads as before. -/
theorem classWord_written_other (c : ClassEntry) {k j : Nat} (w : Word) (hk : k < 4) (hj : j < 4) (hne : j ≠ k) :
    (c.written k w).word j = c.word j := by
  interval_cases k <;> interval_cases j <;> simp [ClassEntry.written, ClassEntry.word] at hne ⊢

theorem stores_classes :
    Stores .cls storeClass (fun s => s.topology.classes) (fun s m => { s with topology.classes := m })
      (fun _ _ => true) clampedClass where
  frame _ _ _ := ⟨_, rfl⟩
  put_put _ _ _ := rfl
  put_get _ := rfl
  same s i w _ _ := by simp only [State.wordAt, storeClass, table_get_put_same, classWord_written_same]
  other s i w j _ _ hj := by
    simp only [State.wordAt, storeClass, table_get_put]
    split_ifs with hclass
    · rw [classWord_written_other _ _ (Nat.mod_lt _ (by decide)) (Nat.mod_lt _ (by decide)) (by omega), hclass]
    · rfl

theorem policyWord_written (w : Word) : (if w.getLsbD 0 = true then GuardPolicy.proceed else .abort).code = w &&& 1 := by
  rw [eq_comm, and_eq_iff]
  intro k hk
  cases h : w.getLsbD 0
  · interval_cases k <;> simp_all [GuardPolicy.code]
  · interval_cases k <;> simp_all [GuardPolicy.code]

theorem arbitrationWord_written (v : Nat) :
    (0#28 ++ BitVec.ofNat 4 (min v 15) : Word) = BitVec.ofNat 32 (min v 15) := by
  apply BitVec.eq_of_toNat_eq
  rw [NoticesSpace.toNat_append_eq, BitVec.toNat_ofNat, BitVec.toNat_ofNat, BitVec.toNat_ofNat]
  omega

theorem maskWord_written (w : Word) :
    (0#18 ++ (w.extractLsb' 0 14 &&& ~~~(1#14 <<< Cause.lockout.bit)) : Word) = w &&& 0x1FFF := by
  rw [eq_comm, and_eq_iff]
  intro k hk
  simp only [BitVec.getLsbD_append, BitVec.getLsbD_and, BitVec.getLsbD_extractLsb', BitVec.getLsbD_zero]
  interval_cases k <;> simp [Cause.bit]

/-- Of the six CONFIG words the one written reads back with its clamping. -/
theorem paramWord_written_same (p : Params) {k : Nat} (w : Word) (hk : k < 6) :
    (p.written k w).word k = clampedParam k w := by
  interval_cases k
  · rfl
  · rfl
  · exact policyWord_written w
  · rfl
  · exact arbitrationWord_written _
  · exact maskWord_written w

theorem paramWord_written_other (p : Params) {k j : Nat} (w : Word) (hk : k < 6) (hj : j < 6) (hne : j ≠ k) :
    (p.written k w).word j = p.word j := by
  interval_cases k <;> interval_cases j <;> simp [Params.written, Params.word] at hne ⊢

theorem stores_config :
    Stores .config storeConfig (fun s => s.control.params) (fun s p => { s with control.params := p })
      (fun _ _ => true) clampedParam where
  frame _ _ _ := ⟨_, rfl⟩
  put_put _ _ _ := rfl
  put_get _ := rfl
  same s _ w hi _ := paramWord_written_same s.control.params w hi
  other s _ w _ hi hj hne := paramWord_written_other s.control.params w hi hj hne

/-! ### The checks of a write -/

/-- The checks of a WRITE to a topology space, each with the answer it gives (R14). -/
theorem writeTopology_eq (s : State) (sp : Space) (start : Nat) (ws : List Word) (storable : Nat → Word → Bool)
    (store : State → Nat → Word → State) :
    s.writeTopology sp start ws storable store =
      if s.control.mode ≠ .configure then .refuse .wrongMode s
      else if ¬ Fits sp.size start ws then .refuse .badIndex s
      else if ¬ everyWord storable start ws = true then .refuse .badArgument s
      else { answer := .done, state := storeWords store s start ws } := by
  simp only [State.writeTopology, ← inSpace_iff, Bool.not_eq_true, Bool.not_eq_true']

/-- A WRITE row is its examination and its answer. -/
structure WriteRow (row : Envelope → WriteArg → Instr) (code : Byte) (handle : State → Nat → List Word → Handled) :
    Prop where
  exec : ∀ e a s, exec (row e a) s =
    .next (s.finishRead.receiveWrite e a code (handle s.finishRead a.start.toNat e.payload))

theorem WriteRow.exec_of_actsOn {row : Envelope → WriteArg → Instr} {code : Byte}
    {handle : State → Nat → List Word → Handled} (hrow : WriteRow row code handle) {s : State} {e : Envelope} {b : Bool}
    (hacts : s.ActsOn e b) (a : WriteArg) {h : Handled} (hh : handle s a.start.toNat e.payload = h)
    (haddress : h.state.ring.address = s.ring.address) :
    Machine.exec (row e a) s = .next (h.state.replies kindWrite (writeArgWord a code) e b h.answer) := by
  rw [hrow.exec, finishRead_idle s hacts.1.2.2, hh, receiveWrite_of_actsOn hacts a code h haddress]

/-- A WRITE row of a topology space. -/
abbrev TopologyRow (row : Envelope → WriteArg → Instr) (code : Byte) (sp : Space) (storable : Nat → Word → Bool)
    (store : State → Nat → Word → State) : Prop :=
  WriteRow row code (fun s start ws => s.writeTopology sp start ws storable store)

section

variable {row : Envelope → WriteArg → Instr} {code : Byte} {sp : Space} {storable : Nat → Word → Bool}
  {store : State → Nat → Word → State} {s : State} {e : Envelope} {b : Bool}

theorem TopologyRow.wrongMode (hrow : TopologyRow row code sp storable store) (hacts : s.ActsOn e b) (a : WriteArg)
    (hmode : s.control.mode ≠ .configure) :
    exec (row e a) s = .next (s.replies kindWrite (writeArgWord a code) e b (.refused .wrongMode)) :=
  hrow.exec_of_actsOn hacts a (h := .refuse .wrongMode s) (by rw [writeTopology_eq, if_pos hmode]) rfl

theorem TopologyRow.badIndex (hrow : TopologyRow row code sp storable store) (hacts : s.ActsOn e b) (a : WriteArg)
    (hmode : s.control.mode = .configure) (hfits : ¬ Fits sp.size a.start.toNat e.payload) :
    exec (row e a) s = .next (s.replies kindWrite (writeArgWord a code) e b (.refused .badIndex)) :=
  hrow.exec_of_actsOn hacts a (h := .refuse .badIndex s)
    (by rw [writeTopology_eq, if_neg (not_not.mpr hmode), if_pos hfits]) rfl

theorem TopologyRow.badArgument (hrow : TopologyRow row code sp storable store) (hacts : s.ActsOn e b) (a : WriteArg)
    (hmode : s.control.mode = .configure) (hfits : Fits sp.size a.start.toNat e.payload)
    (hws : ¬ everyWord storable a.start.toNat e.payload = true) :
    exec (row e a) s = .next (s.replies kindWrite (writeArgWord a code) e b (.refused .badArgument)) :=
  hrow.exec_of_actsOn hacts a (h := .refuse .badArgument s)
    (by rw [writeTopology_eq, if_neg (not_not.mpr hmode), if_neg (not_not.mpr hfits), if_pos hws]) rfl

/-- A WRITE to a topology space that passes its checks stores every word. -/
theorem TopologyRow.done {α : Type} {get : State → α} {put : State → α → State} {stored : Nat → Word → Word}
    (hrow : TopologyRow row code sp storable store) (hstores : Stores sp store get put storable stored)
    (hput : ∀ s m, (put s m).ring = s.ring) (hacts : s.ActsOn e b) (a : WriteArg) (hmode : s.control.mode = .configure)
    (hfits : Fits sp.size a.start.toNat e.payload) (hws : everyWord storable a.start.toNat e.payload = true) :
    ∃ m t, t = put s m ∧
      exec (row e a) s = .next (t.replies kindWrite (writeArgWord a code) e b .done) ∧
      StoredAt sp.size (s.wordAt sp) (t.wordAt sp) stored a.start.toNat e.payload := by
  obtain ⟨m, t, ht, hstore, hstored⟩ := hstores.storedAt s hfits hws
  refine ⟨m, t, ht, hrow.exec_of_actsOn hacts a (h := { answer := .done, state := t }) ?_ ?_, hstored⟩
  · rw [writeTopology_eq, if_neg (not_not.mpr hmode), if_neg (not_not.mpr hfits), if_neg (not_not.mpr hws), hstore]
  · rw [ht, hput]

end

theorem everyWord_const_iff (p : Word → Bool) (start : Nat) (ws : List Word) :
    everyWord (fun _ w => p w) start ws = true ↔ ∀ w ∈ ws, p w = true := by
  rw [everyWord_iff, List.forall_mem_iff_forall_getElem]

theorem everyWord_true (start : Nat) (ws : List Word) : everyWord (fun _ _ => true) start ws = true :=
  (everyWord_const_iff (fun _ => true) start ws).mpr fun _ _ => rfl

theorem row_relayMap : TopologyRow .writeRelayMap 0 .relayMap (fun _ _ => true) storeRelayMap := ⟨fun _ _ _ => rfl⟩

theorem row_class : TopologyRow .writeClass 1 .cls (fun _ _ => true) storeClass := ⟨fun _ _ _ => rfl⟩

theorem row_ports : TopologyRow .writePorts 2 .ports (fun _ w => (PortEntry.ofWord w).isSome) storePort :=
  ⟨fun _ _ _ => rfl⟩

theorem row_sites : TopologyRow .writeSiteEnable 3 .siteEnable (fun _ _ => true) storeSite := ⟨fun _ _ _ => rfl⟩

theorem row_pins : TopologyRow .writePinMap 4 .pinMap (fun _ w => (pinOfWord w).isSome) storePin := ⟨fun _ _ _ => rfl⟩

theorem row_portMap : TopologyRow .writePortMap 5 .portMap (fun _ w => (portOfWord w).isSome) storePortMap :=
  ⟨fun _ _ _ => rfl⟩

theorem everyPort_iff (start : Nat) (ws : List Word) :
    everyWord (fun _ w => (PortEntry.ofWord w).isSome) start ws = true ↔ ∀ w ∈ ws, IsRoleWord w := by
  simp only [everyWord_const_iff, portEntry_isSome_iff]

theorem everyPin_iff (start : Nat) (ws : List Word) :
    everyWord (fun _ w => (pinOfWord w).isSome) start ws = true ↔ ∀ w ∈ ws, IsPinWord w := by
  simp only [everyWord_const_iff, pinOfWord_isSome_iff]

theorem everyPortMap_iff (start : Nat) (ws : List Word) :
    everyWord (fun _ w => (portOfWord w).isSome) start ws = true ↔ ∀ w ∈ ws, IsPortWord w := by
  simp only [everyWord_const_iff, portOfWord_isSome_iff]

/-- Settles O9: the rows of the five spaces that store a word as written differ in their table and their test of a word. -/
theorem topologyWritesStoreEveryWord : Obligations.TopologyWritesStoreEveryWord := by
  intro s e a b hacts hmode
  exact ⟨fun hfits => row_relayMap.done stores_relayMap (fun _ _ => rfl) hacts a hmode hfits (everyWord_true _ _),
    fun hfits hws => row_ports.done stores_ports (fun _ _ => rfl) hacts a hmode hfits ((everyPort_iff _ _).mpr hws),
    fun hfits => row_sites.done stores_sites (fun _ _ => rfl) hacts a hmode hfits (everyWord_true _ _),
    fun hfits hws => row_pins.done stores_pins (fun _ _ => rfl) hacts a hmode hfits ((everyPin_iff _ _).mpr hws),
    fun hfits hws => row_portMap.done stores_portMap (fun _ _ => rfl) hacts a hmode hfits
      ((everyPortMap_iff _ _).mpr hws)⟩

/-! ### CONFIG -/

theorem row_config : WriteRow .writeConfig 9 State.writeConfig := ⟨fun _ _ _ => rfl⟩

/-- A WRITE to CONFIG is checked for its index alone (R188). -/
theorem writeConfig_eq (s : State) (start : Nat) (ws : List Word) :
    s.writeConfig start ws =
      if ¬ Fits 6 start ws then .refuse .badIndex s
      else { answer := .done, state := storeWords storeConfig s start ws } := by
  have hspace : inSpace .config start ws = true ↔ Fits 6 start ws := inSpace_iff .config start ws
  simp only [State.writeConfig, ← hspace, Bool.not_eq_true, Bool.not_eq_true']

/-- Settles O10: CLASS and CONFIG store by the same rule as the other spaces, with a clamping in place of a mask. -/
theorem classAndConfigWritesClamp : Obligations.ClassAndConfigWritesClamp := by
  intro s e a b hacts
  refine ⟨fun hmode hfits => ?cls, fun hfits => ?config, fun hfits => ?refused⟩
  case cls => exact row_class.done stores_classes (fun _ _ => rfl) hacts a hmode hfits (everyWord_true _ _)
  case config =>
    obtain ⟨m, t, ht, hstore, hstored⟩ := stores_config.storedAt s hfits (everyWord_true a.start.toNat e.payload)
    refine ⟨m, t, ht, row_config.exec_of_actsOn hacts a (h := { answer := .done, state := t }) ?_ (by rw [ht]), hstored⟩
    rw [writeConfig_eq, if_neg (not_not.mpr hfits), hstore]
  case refused =>
    exact row_config.exec_of_actsOn hacts a (h := .refuse .badIndex s) (by rw [writeConfig_eq, if_pos hfits]) rfl

/-! ### Refusals -/

/-- A WRITE that names no space is refused BAD_SPACE (R178). -/
theorem exec_write_badSpace {s : State} {e : Envelope} {b : Bool} (hacts : s.ActsOn e b) (a : WriteArg) {space : Byte}
    (hspace : Space.ofCode space = none) :
    exec (.write e a space) s = .next (s.replies kindWrite (writeArgWord a space) e b (.refused .badSpace)) := by
  calc exec (.write e a space) s
      = execWrite e a space s := rfl
    _ = .next (s.receiveWrite e a space (.refuse .badSpace s)) := by
        rw [execWrite, finishRead_idle s hacts.1.2.2, hspace]
    _ = _ := by
        rw [receiveWrite_of_actsOn hacts a space _ rfl]
        rfl

/-- A space code names one of the 17 spaces or none (R179). -/
theorem ofCode_eq_none_iff (c : Byte) : Space.ofCode c = none ↔ 17 ≤ c.toNat := by
  revert c
  decide

/-- Settles O11: the rows of R14 share one examination, and `execWrite` looks at the space code alone. -/
theorem writesRefuseInOrder : Obligations.WritesRefuseInOrder := by
  intro s e a b hacts
  refine ⟨fun row hrow => ?order, fun hmode => ⟨fun hfits hw => ?ports, fun hfits hw => ?pins, fun hfits hw => ?portMap⟩,
    fun space => ⟨fun hspace => ?none, fun hle hlt => ?readOnly⟩⟩
  case order =>
    simp only [topologyWrites, List.mem_cons, List.not_mem_nil, or_false] at hrow
    obtain rfl | rfl | rfl | rfl | rfl | rfl := hrow
    · exact ⟨row_relayMap.wrongMode hacts a, row_relayMap.badIndex hacts a⟩
    · exact ⟨row_class.wrongMode hacts a, row_class.badIndex hacts a⟩
    · exact ⟨row_ports.wrongMode hacts a, row_ports.badIndex hacts a⟩
    · exact ⟨row_sites.wrongMode hacts a, row_sites.badIndex hacts a⟩
    · exact ⟨row_pins.wrongMode hacts a, row_pins.badIndex hacts a⟩
    · exact ⟨row_portMap.wrongMode hacts a, row_portMap.badIndex hacts a⟩
  case ports =>
    exact row_ports.badArgument hacts a hmode hfits (by rw [everyPort_iff, not_forall₂]; simpa only [exists_prop] using hw)
  case pins =>
    exact row_pins.badArgument hacts a hmode hfits (by rw [everyPin_iff, not_forall₂]; simpa only [exists_prop] using hw)
  case portMap =>
    exact row_portMap.badArgument hacts a hmode hfits
      (by rw [everyPortMap_iff, not_forall₂]; simpa only [exists_prop] using hw)
  case none => exact exec_write_badSpace hacts a ((ofCode_eq_none_iff space).mpr hspace)
  case readOnly =>
    have hsome : Space.ofCode space ≠ none := fun h => by
      have := (ofCode_eq_none_iff space).mp h
      omega
    obtain ⟨sp, hsp⟩ := Option.ne_none_iff_exists'.mp hsome
    exact NoticesSpace.exec_write_readOnly hacts a hsp

/-! ### The route store (R33, R34) -/

/-- One of `n` words from `start` on falls where the set in use is in use. -/
def Touches (s : State) (inUse : SetInUse → Nat → Bool) (start n : Nat) : Prop :=
  ∃ ctx u k, s.resolver.context = some ctx ∧ ctx.inUse = some u ∧ k < n ∧ inUse u (start + k) = true

theorem touchesDir_iff (s : State) (start n : Nat) :
    Touches s (fun u i => decide (i = u.dir)) start n ↔ s.TouchesDir start n := by
  constructor
  · rintro ⟨ctx, u, k, hctx, hu, hk, hdir⟩
    have hdir : start + k = u.dir := decide_eq_true_iff.mp hdir
    exact ⟨ctx, u, hctx, hu, by omega, by omega⟩
  · rintro ⟨ctx, u, hctx, hu, hle, hlt⟩
    exact ⟨ctx, u, u.dir - start, hctx, hu, by omega, decide_eq_true (by omega)⟩

theorem touchesRun_iff (s : State) (start n : Nat) :
    Touches s (fun u i => decide (u.first ≤ i ∧ i < u.first + u.count)) start n ↔ s.TouchesRun start n := by
  constructor
  · rintro ⟨ctx, u, k, hctx, hu, hk, hrun⟩
    obtain ⟨hfirst, hlast⟩ := decide_eq_true_iff.mp hrun
    exact ⟨ctx, u, start + k, hctx, hu, by omega, by omega, hfirst, hlast⟩
  · rintro ⟨ctx, u, i, hctx, hu, hle, hlt, hfirst, hlast⟩
    exact ⟨ctx, u, i - start, hctx, hu, by omega, decide_eq_true (by omega)⟩

section

variable {s : State} {sp : Space} {start : Nat} {ws : List Word} {storable : Nat → Word → Bool}
  {inUse : SetInUse → Nat → Bool} {store : State → Nat → Word → State}

theorem writeStore_badIndex (hfits : ¬ Fits sp.size start ws) :
    s.writeStore sp start ws storable inUse store = .refuse .badIndex s := by
  have hspace : inSpace sp start ws = false := by simpa only [← inSpace_iff, Bool.not_eq_true] using hfits
  simp [State.writeStore, hspace]

theorem writeStore_badArgument (hfits : Fits sp.size start ws) (hws : ¬ everyWord storable start ws = true) :
    s.writeStore sp start ws storable inUse store = .refuse .badArgument s := by
  have hspace : inSpace sp start ws = true := (inSpace_iff sp start ws).mpr hfits
  simp [State.writeStore, hspace, hws]

theorem writeStore_busy (hfits : Fits sp.size start ws) (hws : everyWord storable start ws = true)
    (htouches : Touches s inUse start ws.length) :
    s.writeStore sp start ws storable inUse store = .busy .setInUse s := by
  have hspace : inSpace sp start ws = true := (inSpace_iff sp start ws).mpr hfits
  obtain ⟨ctx, u, k, hctx, hu, hk, huse⟩ := htouches
  have hused : ¬ everyWord (fun i _ => !inUse u i) start ws = true := fun hall => by
    simpa [huse] using (everyWord_iff _ start ws).mp hall k hk
  cases ctx
  cases hu
  simp [State.writeStore, hspace, hws, hctx, hused]

theorem writeStore_done (hfits : Fits sp.size start ws) (hws : everyWord storable start ws = true)
    (hfree : ¬ Touches s inUse start ws.length) :
    s.writeStore sp start ws storable inUse store = { answer := .done, state := storeWords store s start ws } := by
  have hspace : inSpace sp start ws = true := (inSpace_iff sp start ws).mpr hfits
  simp only [State.writeStore, hspace, hws, Bool.not_true, Bool.false_eq_true, if_false]
  split
  next ctx u hctx =>
    rw [if_pos]
    refine (everyWord_iff _ start ws).mpr fun k hk => ?_
    by_contra huse
    exact hfree ⟨_, _, k, hctx, rfl, hk, by simpa using huse⟩
  · rfl

end

/-- A WRITE row of the route store. -/
abbrev StoreRow (row : Envelope → WriteArg → Instr) (code : Byte) (sp : Space) (storable : Nat → Word → Bool)
    (inUse : SetInUse → Nat → Bool) (store : State → Nat → Word → State) : Prop :=
  WriteRow row code (fun s start ws => s.writeStore sp start ws storable inUse store)

section

variable {row : Envelope → WriteArg → Instr} {code : Byte} {sp : Space} {storable : Nat → Word → Bool}
  {inUse : SetInUse → Nat → Bool} {store : State → Nat → Word → State} {s : State} {e : Envelope} {b : Bool}

theorem StoreRow.badIndex (hrow : StoreRow row code sp storable inUse store) (hacts : s.ActsOn e b) (a : WriteArg)
    (hfits : ¬ Fits sp.size a.start.toNat e.payload) :
    exec (row e a) s = .next (s.replies kindWrite (writeArgWord a code) e b (.refused .badIndex)) :=
  hrow.exec_of_actsOn hacts a (h := .refuse .badIndex s) (writeStore_badIndex hfits) rfl

theorem StoreRow.badArgument (hrow : StoreRow row code sp storable inUse store) (hacts : s.ActsOn e b) (a : WriteArg)
    (hfits : Fits sp.size a.start.toNat e.payload) (hws : ¬ everyWord storable a.start.toNat e.payload = true) :
    exec (row e a) s = .next (s.replies kindWrite (writeArgWord a code) e b (.refused .badArgument)) :=
  hrow.exec_of_actsOn hacts a (h := .refuse .badArgument s) (writeStore_badArgument hfits hws) rfl

theorem StoreRow.busy (hrow : StoreRow row code sp storable inUse store) (hacts : s.ActsOn e b) (a : WriteArg)
    (hfits : Fits sp.size a.start.toNat e.payload) (hws : everyWord storable a.start.toNat e.payload = true)
    (htouches : Touches s inUse a.start.toNat e.payload.length) :
    exec (row e a) s = .next (s.replies kindWrite (writeArgWord a code) e b (.busy .setInUse)) :=
  hrow.exec_of_actsOn hacts a (h := .busy .setInUse s) (writeStore_busy hfits hws htouches) rfl

theorem StoreRow.done {α : Type} {get : State → α} {put : State → α → State} {stored : Nat → Word → Word}
    (hrow : StoreRow row code sp storable inUse store) (hstores : Stores sp store get put storable stored)
    (hput : ∀ s m, (put s m).ring = s.ring) (hacts : s.ActsOn e b) (a : WriteArg)
    (hfits : Fits sp.size a.start.toNat e.payload) (hws : everyWord storable a.start.toNat e.payload = true)
    (hfree : ¬ Touches s inUse a.start.toNat e.payload.length) :
    ∃ m t, t = put s m ∧
      exec (row e a) s = .next (t.replies kindWrite (writeArgWord a code) e b .done) ∧
      StoredAt sp.size (s.wordAt sp) (t.wordAt sp) stored a.start.toNat e.payload := by
  obtain ⟨m, t, ht, hstore, hstored⟩ := hstores.storedAt s hfits hws
  refine ⟨m, t, ht, hrow.exec_of_actsOn hacts a (h := { answer := .done, state := t }) ?_ ?_, hstored⟩
  · rw [writeStore_done hfits hws hfree, hstore]
  · rw [ht, hput]

end

theorem row_directory :
    StoreRow .writeRouteDir 6 .routeDir (fun _ w => (DirEntry.ofWord w).isSome) (fun u i => decide (i = u.dir)) storeDir :=
  ⟨fun _ _ _ => rfl⟩

theorem row_entries :
    StoreRow .writeEntries 7 .entries (fun _ w => (Entry.ofWord w).isSome)
      (fun u i => decide (u.first ≤ i ∧ i < u.first + u.count)) storeEntry :=
  ⟨fun _ _ _ => rfl⟩

theorem everyDir_iff (start : Nat) (ws : List Word) :
    everyWord (fun _ w => (DirEntry.ofWord w).isSome) start ws = true ↔ ∀ w ∈ ws, IsDirWord w := by
  simp only [everyWord_const_iff, dirEntry_isSome_iff]

theorem everyEntry_iff (start : Nat) (ws : List Word) :
    everyWord (fun _ w => (Entry.ofWord w).isSome) start ws = true ↔ ∀ w ∈ ws, IsEntryWord w := by
  simp only [everyWord_const_iff, entry_isSome_iff]

/-- Settles O12: both rows share one examination, and differ in the words that are in use. -/
theorem routeStoreWritesStoreOrRefuse : Obligations.RouteStoreWritesStoreOrRefuse := by
  intro s e a b hacts
  simp only [← everyDir_iff a.start.toNat, ← everyEntry_iff a.start.toNat, ← touchesDir_iff, ← touchesRun_iff]
  have hdir : (∃ w ∈ e.payload, ¬ IsDirWord w) →
      ¬ everyWord (fun _ w => (DirEntry.ofWord w).isSome) a.start.toNat e.payload = true := fun hw => by
    rw [everyDir_iff, not_forall₂]
    simpa only [exists_prop] using hw
  have hentry : (∃ w ∈ e.payload, ¬ IsEntryWord w) →
      ¬ everyWord (fun _ w => (Entry.ofWord w).isSome) a.start.toNat e.payload = true := fun hw => by
    rw [everyEntry_iff, not_forall₂]
    simpa only [exists_prop] using hw
  exact ⟨row_directory.done stores_directory (fun _ _ => rfl) hacts a,
    row_entries.done stores_entries (fun _ _ => rfl) hacts a,
    row_directory.badIndex hacts a, fun hfits hw => row_directory.badArgument hacts a hfits (hdir hw),
    row_directory.busy hacts a, row_entries.badIndex hacts a,
    fun hfits hw => row_entries.badArgument hacts a hfits (hentry hw), row_entries.busy hacts a⟩

end Sys2Proof.SpaceWrites
end

section
/-! READ frames that are acted on: their checks, and the words they take in their own event (R180, R181). -/

namespace Sys2Proof.Reads

open Sys2Proof.Machine Sys2Proof.Laws

theorem exec_read_refused {s : State} {e : Envelope} (hacts : s.ActsOn e false) {a : ReadArg} {space : Byte} {r : Reason}
    (hcheck : s.checkRead a space = .refused r) :
    exec (.read e a space) s = .next (s.replies kindRead (readArgWord a space) e false (.refused r)) := by
  have hidle : s.ring.reading = none := hacts.1.2.2
  change execRead e a space s = _
  simp only [execRead, finishRead_idle s hidle, (disposition_act_iff s e false hidle).mpr hacts, hcheck]
  rw [State.receiveRead, receive_of_actsOn s _ _ e false _ hacts]
  rfl

theorem exec_read_filled {s : State} {e : Envelope} (hacts : s.ActsOn e false) {a : ReadArg} {space : Byte} {sp : Space}
    {start : Nat} (hcheck : s.checkRead a space = .fill sp start) :
    exec (.read e a space) s = .next (s.takeRead e a space sp start) := by
  have hidle : s.ring.reading = none := hacts.1.2.2
  change execRead e a space s = _
  simp only [execRead, finishRead_idle s hidle, (disposition_act_iff s e false hidle).mpr hacts, hcheck]

/-- The space is looked up first, and then the start index (R181). -/
theorem checkRead_of_error {s : State} {a : ReadArg} {space : Byte} {sp : Space} {r : Reason}
    (hsp : Space.ofCode space = some sp) (hne : sp ≠ .notices) (hstart : s.readStart sp a = .error r) :
    s.checkRead a space = .refused r := by
  unfold State.checkRead
  rw [hsp]
  cases sp with
  | notices => exact absurd rfl hne
  | _ => simp only [hstart]

theorem checkRead_of_ok {s : State} {a : ReadArg} {space : Byte} {sp : Space} {start : Nat}
    (hsp : Space.ofCode space = some sp) (hne : sp ≠ .notices) (hstart : s.readStart sp a = .ok start) :
    s.checkRead a space = .fill sp start := by
  unfold State.checkRead
  rw [hsp]
  cases sp with
  | notices => exact absurd rfl hne
  | _ => simp only [hstart]

/-- A READ with CONTINUE needs a cursor of its space (R181). -/
theorem readStart_noCursor {s : State} {sp : Space} {a : ReadArg} (hresume : a.resume = true)
    (hcursor : ∀ next, s.ring.cursor ≠ some { space := sp, next := next }) : s.readStart sp a = .error .noCursor := by
  unfold State.readStart
  rw [if_pos hresume]
  split
  next c hc =>
    rw [if_neg]
    rintro rfl
    exact hcursor c.next hc
  · rfl

theorem readStart_badIndex {s : State} {sp : Space} {a : ReadArg} (hresume : a.resume = false)
    (hstart : sp.size ≤ a.start.toNat) : s.readStart sp a = .error .badIndex := by
  simp [State.readStart, hresume, hstart]

/-- The start index of a READ that passes its checks (R180). -/
theorem readStart_ok {s : State} {sp : Space} {a : ReadArg} {start : Nat}
    (h : a.resume = false ∧ a.start.toNat = start ∧ start < sp.size ∨
      a.resume = true ∧ s.ring.cursor = some { space := sp, next := start } ∧ start ≤ sp.size) :
    s.readStart sp a = .ok start := by
  obtain ⟨hresume, rfl, hlt⟩ | ⟨hresume, hcursor, hle⟩ := h
  · simp [State.readStart, hresume, hlt]
  · simp [State.readStart, hresume, hcursor, hle]

/-- A READ that takes all its words at once is sent on, DONE, with the words as they stand. -/
theorem tookWords_all {s : State} (hidle : s.ring.reading = none) (e : Envelope) (arg : Word) (sp : Space) (start n : Nat) :
    s.tookWords { env := e, arg := arg, space := sp, start := start, goal := n, filled := [] } n =
      s.send (sealedWords kindRead arg
        { e with
          status := 1, reason := 0, filled := BitVec.ofNat 8 n,
          payload := (List.range n).map (fun k => s.wordAt sp (start + k)) ++ e.payload.drop n }) := by
  have hring : { s with ring.reading := none } = s := by rw [← hidle]
  simp [State.tookWords, State.holding, Reading.takes, hring]

/-- Settles O14: a READ that passes its checks takes words of the space up to one before which an event may fall. -/
theorem readsFillFromTheSpace : Obligations.ReadsFillFromTheSpace := by
  intro s e a space sp start hacts hsp hne hstart n moved
  have hcheck := checkRead_of_ok hsp hne (readStart_ok hstart)
  obtain ⟨m, hle, hpart, htake⟩ := takeRead_cases s e a space sp start
  have hexec := exec_read_filled hacts hcheck
  rw [htake] at hexec
  refine ⟨m, hle, hpart, hexec, fun hm => ?_⟩
  have hwords : ∀ i, moved.wordAt sp i = s.wordAt sp i := fun i => wordAt_ring s moved.ring moved.free sp i rfl
  have hidle : moved.ring.reading = none := hacts.1.2.2
  rw [hexec, hm]
  refine (congrArg Host.Outcome.next (tookWords_all hidle e (readArgWord a space) sp start n)).trans ?_
  simp only [hwords]

theorem refusedBroadcast_eq (e : Envelope) (address : BitVec 4) :
    refusedBroadcast e address = { e with refusals := e.refusals ||| (1#16 <<< address.toNat) } := rfl

/-- A READ that is broadcast is refused by every controller, whatever it would have read (R181). -/
theorem receiveRead_broadcast {s : State} {e : Envelope} (hacts : s.ActsOn e true) (a : ReadArg) (space : Byte)
    (h : Handled × Envelope) :
    s.receiveRead e a space h = s.send (sealedWords kindRead (readArgWord a space) (refusedBroadcast e s.ring.address)) := by
  rw [State.receiveRead, receive_of_actsOn s _ _ e true _ hacts]
  rfl

/-- Settles O16: the checks are made in order, and none of them moves the cursor. -/
theorem readsRefuseInOrder : Obligations.ReadsRefuseInOrder := by
  intro s e a space
  refine ⟨fun hacts hspace => ?badSpace, fun sp hacts hsp hne => ⟨fun hresume hcursor => ?noCursor,
    fun hresume hstart => ?badIndex⟩, fun hacts => ⟨?broadcast, ?notices⟩⟩
  case badSpace =>
    refine exec_read_refused hacts ?_
    rw [State.checkRead, (SpaceWrites.ofCode_eq_none_iff space).mpr hspace]
  case noCursor =>
    exact exec_read_refused hacts (checkRead_of_error hsp hne (readStart_noCursor hresume hcursor))
  case badIndex =>
    exact exec_read_refused hacts (checkRead_of_error hsp hne (readStart_badIndex hresume hstart))
  case broadcast =>
    have hidle : s.ring.reading = none := hacts.1.2.2
    change execRead e a space s = _
    simp only [execRead, finishRead_idle s hidle, (disposition_act_iff s e true hidle).mpr hacts]
    rw [receiveRead_broadcast hacts, refusedBroadcast_eq]
  case notices =>
    change execReadNotices e a s = _
    rw [execReadNotices, finishRead_idle s hacts.1.2.2]
    exact congrArg Host.Outcome.next (receiveRead_broadcast hacts a 15 _)

end Sys2Proof.Reads
end

section
/-! The validation of the tables and ENTER_RUN (R15 to R17, R68, R186). -/

namespace Sys2Proof.Validation

open Sys2Proof.Machine Sys2Proof.Laws Sys2Proof.ControlFrames

/-! ### The first fault of a table -/

section
variable {α β : Type} [DecidableEq α] {d : α} {t : Table α} {f : Nat × α → Option β}

/-- Where an unlisted entry has no fault, the faults of a canonical table are those of its indices. -/
theorem findSome?_table_eq_none_iff (hwf : Table.wf d t) (hd : ∀ i, f (i, d) = none) :
    t.findSome? f = none ↔ ∀ i, f (i, Table.get d t i) = none := by
  rw [List.findSome?_eq_none_iff]
  refine ⟨fun h i => ?_, fun h e he => ?_⟩
  · by_cases hi : Table.get d t i = d
    · rw [hi, hd]
    · exact h _ (Resolving.mem_of_get_ne hi)
  · have hget := ((table_mem_iff_get d t hwf e.1 e.2).mp he).2
    simpa [hget] using h e.1

/-- The entry found is that of the lowest index with a fault. -/
theorem findSome?_table_eq_some (hwf : Table.wf d t) (hd : ∀ i, f (i, d) = none) {i : Nat} {x : β}
    (hx : f (i, Table.get d t i) = some x) (hmin : ∀ j, j < i → f (j, Table.get d t j) = none) : t.findSome? f = some x := by
  have hmem : (i, Table.get d t i) ∈ t := Resolving.mem_of_get_ne fun h => by
    rw [h, hd] at hx
    cases hx
  obtain ⟨before, after, hsplit⟩ := List.append_of_mem hmem
  refine List.findSome?_eq_some_iff.mpr ⟨before, _, after, hsplit, hx, fun e he => ?_⟩
  have hlisted : e ∈ t := hsplit ▸ List.mem_append_left _ he
  have hlt : e.1 < i := (List.pairwise_append.mp (hsplit ▸ hwf.1)).2.2 e he _ List.mem_cons_self
  have hget := ((table_mem_iff_get d t hwf e.1 e.2).mp hlisted).2
  simpa [hget] using hmin e.1 hlt

end

theorem findSome?_range_eq_none_iff {β : Type} {f : Nat → Option β} {n : Nat} :
    (List.range n).findSome? f = none ↔ ∀ i, i < n → f i = none := by
  simp only [List.findSome?_eq_none_iff, List.mem_range]

/-! ### The faults of an entry -/

section
variable {s : State}

/-- The endpoints of a relay map entry that no present relay may have (R15). -/
def badEndpoints (e : RelayEntry) : Prop := 111 < e.a.toNat ∨ 111 < e.b.toNat ∨ e.a = e.b

theorem relayFault_eq_none_iff (r : Nat) : s.relayFault r (s.relay r) = none ↔
    ((s.relay r).present = true → ¬ badEndpoints (s.relay r) ∧ (s.classOf r).operate ≠ 0) := by
  have hclass : (s.classOf r).operate = (s.topology.classes.get .initial (s.relay r).cls.toNat).operate := rfl
  rw [hclass]
  unfold State.relayFault badEndpoints
  split
  next hpresent =>
    split
    · simp_all
    · split <;> simp_all
  · simp_all

theorem relayFault_of_endpoints {r : Nat} (hpresent : (s.relay r).present = true) (hbad : badEndpoints (s.relay r)) :
    s.relayFault r (s.relay r) = some { outcome := .badEndpoints, index := r, related := 0 } :=
  (if_pos hpresent).trans (if_pos hbad)

theorem relayFault_of_class {r : Nat} (hpresent : (s.relay r).present = true) (hgood : ¬ badEndpoints (s.relay r))
    (hclass : (s.classOf r).operate = 0) :
    s.relayFault r (s.relay r) = some { outcome := .badClass, index := r, related := (s.relay r).cls.toNat } :=
  (if_pos hpresent).trans ((if_neg hgood).trans (if_pos hclass))

theorem relayFault_absent (r : Nat) : s.relayFault r RelayEntry.absent = none := rfl

theorem classFault_eq_none_iff (c : Nat) : s.classFault c = none ↔
    (s.topology.classes.get .initial c).warn.toNat ≤ (s.topology.classes.get .initial c).retire.toNat := by
  simp [State.classFault]

theorem classFault_of_order {c : Nat}
    (h : ¬ (s.topology.classes.get .initial c).warn.toNat ≤ (s.topology.classes.get .initial c).retire.toNat) :
    s.classFault c = some { outcome := .classOrder, index := c, related := 0 } :=
  if_pos (Nat.lt_of_not_le h)

theorem portFault_condition (i : Nat) : ¬ ((s.port i).guarded = true → (s.port i).role = .force ∧ i < 24) ↔
    (s.port i).guarded = true ∧ ((s.port i).role ≠ .force ∨ 24 ≤ i) := by
  rw [Classical.not_imp, Classical.not_and_iff_not_or_not, Nat.not_lt]

theorem portFault_eq_none_iff (i : Nat) :
    s.portFault i = none ↔ ((s.port i).guarded = true → (s.port i).role = .force ∧ i < 24) := by
  rw [← not_iff_not, portFault_condition]
  simp only [State.portFault, State.port, ite_eq_right_iff, reduceCtorEq, imp_false, not_not]

theorem portFault_of_guard {i : Nat} (h : ¬ ((s.port i).guarded = true → (s.port i).role = .force ∧ i < 24)) :
    s.portFault i = some { outcome := .badGuard, index := i, related := 80 + i } :=
  if_pos ((portFault_condition i).mp h)

/-- No fault of an entry is the outcome OK. -/
theorem relayFault_outcome {r : Nat} {e : RelayEntry} {v : ValidationRecord} (h : s.relayFault r e = some v) :
    v.outcome ≠ .ok := by
  unfold State.relayFault at h
  split at h
  · split at h
    · cases h; simp
    · split at h
      · cases h; simp
      · cases h
  · cases h

theorem classFault_outcome {c : Nat} {v : ValidationRecord} (h : s.classFault c = some v) : v.outcome ≠ .ok := by
  by_cases hc : s.classFault c = none
  · simp [hc] at h
  · rw [classFault_of_order ((classFault_eq_none_iff c).not.mp hc)] at h
    cases h
    simp

theorem portFault_outcome {i : Nat} {v : ValidationRecord} (h : s.portFault i = some v) : v.outcome ≠ .ok := by
  by_cases hp : s.portFault i = none
  · simp [hp] at h
  · rw [portFault_of_guard ((portFault_eq_none_iff i).not.mp hp)] at h
    cases h
    simp

end

/-! ### Pin map aliases (R16) -/

/-- The mapped entries of a pin map, with the pin lines they name. -/
def mapped (t : Table (Option (BitVec 6))) : List (Nat × BitVec 6) := t.filterMap (fun e => e.2.map (fun p => (e.1, p)))

/-- No two of the entries name one pin line. -/
abbrev Unaliased (l : List (Nat × BitVec 6)) : Prop := l.Pairwise (fun x y => x.2 ≠ y.2)

@[simp] theorem mapped_cons_none (i : Nat) (t : Table (Option (BitVec 6))) : mapped ((i, none) :: t) = mapped t := rfl

@[simp] theorem mapped_cons_some (i : Nat) (p : BitVec 6) (t : Table (Option (BitVec 6))) :
    mapped ((i, some p) :: t) = (i, p) :: mapped t := rfl

theorem mem_mapped {t : Table (Option (BitVec 6))} (x : Nat × BitVec 6) : x ∈ mapped t ↔ (x.1, some x.2) ∈ t := by
  obtain ⟨i, p⟩ := x
  simp [mapped]

theorem mapped_ascending {t : Table (Option (BitVec 6))} (hwf : Table.wf none t) :
    (mapped t).Pairwise (fun x y => x.1 < y.1) := by
  refine List.pairwise_filterMap.mpr (hwf.1.imp ?_)
  rintro ⟨i, _⟩ ⟨j, _⟩ hlt x hx y hy
  obtain ⟨p, -, rfl⟩ := Option.map_eq_some_iff.mp hx
  obtain ⟨q, -, rfl⟩ := Option.map_eq_some_iff.mp hy
  exact hlt

/-- An entry that names no pin line seen before it is passed over. -/
theorem find?_eq_none_of_unaliased {seen rest : List (Nat × BitVec 6)} {i : Nat} {p : BitVec 6}
    (h : Unaliased (seen ++ (i, p) :: rest)) : seen.find? (fun e => decide (e.2 = p)) = none := by
  rw [List.find?_eq_none]
  intro e he
  simpa using (List.pairwise_append.mp h).2.2 e he _ List.mem_cons_self

/-- The front of a pin map with no aliased entry is passed over. -/
theorem pinFault_of_unaliased {seen : List (Nat × BitVec 6)} (front : Table (Option (BitVec 6)))
    (rest : Table (Option (BitVec 6))) (h : Unaliased (seen ++ mapped front)) :
    pinFault seen (front ++ rest) = pinFault (seen ++ mapped front) rest := by
  induction front generalizing seen with
  | nil => simp [mapped]
  | cons e front ih =>
    obtain ⟨i, _ | p⟩ := e
    · exact ih h
    · rw [mapped_cons_some] at h ⊢
      simp only [List.cons_append, pinFault, find?_eq_none_of_unaliased h]
      rw [ih (by simpa using h), List.append_assoc, List.singleton_append]

/-- An entry that names the pin line of one seen before it is the fault. -/
theorem pinFault_of_alias {seen : List (Nat × BitVec 6)} (h : Unaliased seen) {i j : Nat} {p : BitVec 6}
    (hseen : (j, p) ∈ seen) (rest : Table (Option (BitVec 6))) :
    pinFault seen ((i, some p) :: rest) = some { outcome := .pinAlias, index := i, related := j } := by
  have hfind : seen.find? (fun e => decide (e.2 = p)) = some (j, p) := by
    obtain ⟨before, after, rfl⟩ := List.append_of_mem hseen
    rw [List.find?_append, find?_eq_none_of_unaliased h]
    simp
  rw [pinFault, hfind]

theorem pinFault_outcome {seen : List (Nat × BitVec 6)} {t : Table (Option (BitVec 6))} {v : ValidationRecord}
    (h : pinFault seen t = some v) : v.outcome ≠ .ok := by
  induction t generalizing seen with
  | nil => cases h
  | cons e t ih =>
    obtain ⟨i, _ | p⟩ := e
    · exact ih h
    · rw [pinFault] at h
      split at h
      · cases h; simp
      · exact ih h

/-- A pin map passes exactly when no two of its entries name one pin line. -/
theorem pinFault_eq_none_iff {seen : List (Nat × BitVec 6)} (hseen : Unaliased seen) (t : Table (Option (BitVec 6))) :
    pinFault seen t = none ↔ Unaliased (seen ++ mapped t) := by
  induction t generalizing seen with
  | nil => simpa [pinFault, mapped] using hseen
  | cons e t ih =>
    obtain ⟨i, _ | p⟩ := e
    · exact ih hseen
    · rw [pinFault, mapped_cons_some]
      split
      next e he =>
        refine iff_of_false (by simp) fun h => ?_
        rw [find?_eq_none_of_unaliased h] at he
        cases he
      next he =>
        have hlast : Unaliased (seen ++ [(i, p)]) := by
          rw [List.find?_eq_none] at he
          exact List.pairwise_append.mpr ⟨hseen, List.pairwise_singleton _ _, fun x hx y hy => by
            rw [List.mem_singleton.mp hy]
            simpa using he x hx⟩
        rw [ih hlast, List.append_assoc, List.singleton_append]

/-- A pin line is named by the mapped entries that hold it. -/
theorem mem_mapped_iff_get {t : Table (Option (BitVec 6))} (hwf : Table.wf none t) (x : Nat × BitVec 6) :
    x ∈ mapped t ↔ Table.get none t x.1 = some x.2 := by
  rw [mem_mapped, table_mem_iff_get none t hwf]
  simp

theorem unaliased_iff {t : Table (Option (BitVec 6))} (hwf : Table.wf none t) :
    Unaliased (mapped t) ↔ ∀ i j p, i < j → Table.get none t i = some p → Table.get none t j ≠ some p := by
  refine ⟨fun h i j p hlt hi hj => ?_, fun h => ?_⟩
  · have hboth := List.Pairwise.and (mapped_ascending hwf) h
    have hne := List.Pairwise.forall_of_forall_of_flip
      (R := fun x y : Nat × BitVec 6 => x.1 ≠ y.1 → x.2 ≠ y.2) (fun _ _ hself => absurd rfl hself)
      (hboth.imp fun hxy _ => hxy.2) (hboth.imp fun hxy _ => hxy.2.symm)
    exact hne ((mem_mapped_iff_get hwf (i, p)).mpr hi) ((mem_mapped_iff_get hwf (j, p)).mpr hj) hlt.ne rfl
  · refine (mapped_ascending hwf).imp_of_mem fun {x y} hx hy hlt heq => ?_
    exact h x.1 y.1 x.2 hlt ((mem_mapped_iff_get hwf x).mp hx) (heq ▸ (mem_mapped_iff_get hwf y).mp hy)

/-- The first aliased entry of a canonical pin map. -/
theorem pinFault_of_first {t : Table (Option (BitVec 6))} (hwf : Table.wf none t) {i j : Nat} {p : BitVec 6} (hlt : j < i)
    (hj : Table.get none t j = some p) (hi : Table.get none t i = some p)
    (hfirst : ∀ i' j' q, j' < i' → i' < i → Table.get none t j' = some q → Table.get none t i' ≠ some q) :
    pinFault [] t = some { outcome := .pinAlias, index := i, related := j } := by
  have hmem : (i, some p) ∈ t := (table_mem_iff_get none t hwf i _).mpr ⟨by simp, hi⟩
  obtain ⟨front, rest, rfl⟩ := List.append_of_mem hmem
  obtain ⟨hfront, hrest, hbefore⟩ := List.pairwise_append.mp hwf.1
  have hlower : ∀ e ∈ front, e.1 < i := fun e he => hbefore e he _ List.mem_cons_self
  have hwfFront : Table.wf none front := ⟨hfront, fun e he => hwf.2 e (List.mem_append_left _ he)⟩
  have hget : ∀ x ∈ mapped front, Table.get none (front ++ (i, some p) :: rest) x.1 = some x.2 := fun x hx =>
    ((table_mem_iff_get none _ hwf _ _).mp (List.mem_append_left _ ((mem_mapped x).mp hx))).2
  have hunaliased : Unaliased (mapped front) := by
    refine (mapped_ascending hwfFront).imp_of_mem fun {x y} hx hy hxy heq => ?_
    exact hfirst y.1 x.1 x.2 hxy (hlower _ ((mem_mapped y).mp hy)) (hget x hx) (heq ▸ hget y hy)
  have hseen : (j, p) ∈ mapped front := by
    have hjmem : (j, some p) ∈ front ++ (i, some p) :: rest := (table_mem_iff_get none _ hwf j _).mpr ⟨by simp, hj⟩
    refine (mem_mapped _).mpr ((List.mem_append.mp hjmem).resolve_right fun hafter => ?_)
    obtain heq | hin := List.mem_cons.mp hafter
    · exact absurd (congrArg Prod.fst heq) hlt.ne
    · exact absurd ((List.pairwise_cons.mp hrest).1 _ hin) (Nat.lt_asymm hlt)
  rw [pinFault_of_unaliased front _ (by simpa using hunaliased), List.nil_append]
  exact pinFault_of_alias hunaliased hseen rest

/-! ### The four stages (R15) -/

section
variable {s : State}

theorem relays_pass_iff (h : s.Canonical) : s.topology.relayMap.findSome? (fun e => s.relayFault e.1 e.2) = none ↔
    ∀ r, (s.relay r).present = true → ¬ badEndpoints (s.relay r) ∧ (s.classOf r).operate ≠ 0 := by
  rw [findSome?_table_eq_none_iff h.relayMap relayFault_absent]
  exact forall_congr' fun r => relayFault_eq_none_iff r

/-- A first fault among the relays is what validation names. -/
theorem validate_of_relay (h : s.Canonical) {r : Nat} {v : ValidationRecord} (hv : s.relayFault r (s.relay r) = some v)
    (hmin : ∀ r', r' < r → s.relayFault r' (s.relay r') = none) : s.validate = v := by
  rw [State.validate, findSome?_table_eq_some h.relayMap relayFault_absent hv hmin]

theorem validate_of_class (hrelays : s.topology.relayMap.findSome? (fun e => s.relayFault e.1 e.2) = none) {c : Nat}
    {v : ValidationRecord} (hc : c < 16) (hv : s.classFault c = some v) (hmin : ∀ c', c' < c → s.classFault c' = none) :
    s.validate = v := by
  rw [State.validate, hrelays, Resolving.findSome?_range_eq_some hc hv hmin]

theorem validate_of_port (hrelays : s.topology.relayMap.findSome? (fun e => s.relayFault e.1 e.2) = none)
    (hclasses : (List.range 16).findSome? (fun c => s.classFault c) = none) {i : Nat}
    {v : ValidationRecord} (hi : i < 32) (hv : s.portFault i = some v) (hmin : ∀ j, j < i → s.portFault j = none) :
    s.validate = v := by
  rw [State.validate, hrelays, hclasses, Resolving.findSome?_range_eq_some hi hv hmin]

theorem validate_of_pin (hrelays : s.topology.relayMap.findSome? (fun e => s.relayFault e.1 e.2) = none)
    (hclasses : (List.range 16).findSome? (fun c => s.classFault c) = none)
    (hports : (List.range 32).findSome? (fun i => s.portFault i) = none) {v : ValidationRecord}
    (hv : pinFault [] s.topology.pinMap = some v) : s.validate = v := by
  rw [State.validate, hrelays, hclasses, hports, hv]

/-- Tables that pass the four stages are validated OK, and a fault is never named OK. -/
theorem validate_of_valid (h : s.Canonical) (hvalid : s.TablesValid) :
    s.validate = { outcome := .ok, index := 0, related := 0 } := by
  have hrelays := (relays_pass_iff h).mpr fun r hr => by
    obtain ⟨ha, hb, hne, hclass⟩ := hvalid.relays r hr
    exact ⟨by rintro (hx | hx | hx) <;> [omega; omega; exact hne hx], hclass⟩
  have hclasses := findSome?_range_eq_none_iff.mpr fun c hc => (classFault_eq_none_iff (s := s) c).mpr (hvalid.classes c hc)
  have hports := findSome?_range_eq_none_iff.mpr fun i hi => (portFault_eq_none_iff (s := s) i).mpr (hvalid.ports i hi)
  have hpins : pinFault [] s.topology.pinMap = none :=
    (pinFault_eq_none_iff List.Pairwise.nil _).mpr ((unaliased_iff h.pinMap).mpr hvalid.pins)
  rw [State.validate, hrelays, hclasses, hports, hpins]

theorem outcome_ne_ok (h : s.Canonical) (hvalid : ¬ s.TablesValid) : s.validate.outcome ≠ .ok := by
  unfold State.validate
  split
  next v hv =>
    obtain ⟨e, -, he⟩ := List.exists_of_findSome?_eq_some hv
    exact relayFault_outcome he
  next hrelays =>
    split
    next v hv =>
      obtain ⟨c, -, hc⟩ := List.exists_of_findSome?_eq_some hv
      exact classFault_outcome hc
    next hclasses =>
      split
      next v hv =>
        obtain ⟨i, -, hi⟩ := List.exists_of_findSome?_eq_some hv
        exact portFault_outcome hi
      next hports =>
        split
        next v hv => exact pinFault_outcome hv
        next hpins =>
          refine absurd ⟨fun r hr => ?_, fun c hc => ?_, fun i hi => ?_, ?_⟩ hvalid
          · obtain ⟨hends, hclass⟩ := (relays_pass_iff h).mp hrelays r hr
            unfold badEndpoints at hends
            exact ⟨by omega, by omega, fun heq => hends (.inr (.inr heq)), hclass⟩
          · exact (classFault_eq_none_iff c).mp (findSome?_range_eq_none_iff.mp hclasses c hc)
          · exact (portFault_eq_none_iff i).mp (findSome?_range_eq_none_iff.mp hports i hi)
          · exact (unaliased_iff h.pinMap).mp ((pinFault_eq_none_iff List.Pairwise.nil _).mp hpins)

end

/-- Settles O18: each stage is examined once those before it have passed, and names its lowest fault. -/
theorem validationNamesTheFirstFailure : Obligations.ValidationNamesTheFirstFailure := by
  intro s h endpointsBad relayOk classOk portOk pin
  refine ⟨fun r hmin hpresent => ?relay, fun hrelays => ⟨fun c hc hmin hbad => ?cls, fun hclasses =>
    ⟨fun i hi hmin hbad => ?port, fun hports i j p hlt hj hi hfirst => ?pin⟩⟩⟩
  case relay =>
    have hbefore : ∀ r', r' < r → s.relayFault r' (s.relay r') = none :=
      fun r' hr' => (relayFault_eq_none_iff r').mpr (hmin r' hr')
    exact ⟨fun hbad => validate_of_relay h (relayFault_of_endpoints hpresent hbad) hbefore,
      fun hgood hclass => validate_of_relay h (relayFault_of_class hpresent hgood hclass) hbefore⟩
  all_goals have hrelaysPass := (relays_pass_iff h).mpr hrelays
  case cls =>
    exact validate_of_class hrelaysPass hc (classFault_of_order hbad)
      fun c' hc' => (classFault_eq_none_iff c').mpr (hmin c' hc')
  all_goals have hclassesPass := findSome?_range_eq_none_iff.mpr fun c hc =>
    (classFault_eq_none_iff (s := s) c).mpr (hclasses c hc)
  case port =>
    exact validate_of_port hrelaysPass hclassesPass hi (portFault_of_guard hbad)
      fun i' hi' => (portFault_eq_none_iff i').mpr (hmin i' hi')
  case pin =>
    have hportsPass := findSome?_range_eq_none_iff.mpr fun i hi =>
      (portFault_eq_none_iff (s := s) i).mpr (hports i hi)
    exact validate_of_pin hrelaysPass hclassesPass hportsPass (pinFault_of_first h.pinMap hlt hj hi hfirst)

/-! ### ENTER_RUN (R186) -/

/-- An ENTER_RUN that is acted on is answered as its mode and its tables have it. -/
theorem exec_enterRun {s : State} {e : Envelope} {b : Bool} (hacts : s.ActsOn e b) (a : ControlArg) {h : Handled}
    (hh : s.enterRun = h) (haddress : h.state.ring.address = s.ring.address) :
    exec (.enterRun e a) s = .next (h.state.replies kindControl (controlArgWord a 1) e b h.answer) := by
  calc exec (.enterRun e a) s
      = execEnterRun e a s := rfl
    _ = .next (s.receiveControl e a .enterRun h) := by rw [execEnterRun, finishRead_idle s hacts.1.2.2, hh]
    _ = _ := by rw [receiveControl_of_actsOn hacts a _ h haddress]; rfl

/-- Settles O19: in CONFIGURE the outcome of the validation is OK exactly with valid tables. -/
theorem enterRunNeedsValidTables : Obligations.EnterRunNeedsValidTables := by
  intro s e a b hcanonical hacts
  refine ⟨fun hmode hvalid => ?valid, fun hmode hvalid => ?invalid, fun hmode => ?run, fun hmode => ?lockedOut⟩
  case valid =>
    have hv := validate_of_valid hcanonical hvalid
    exact exec_enterRun hacts a (h := { answer := .done, state :=
      { s with control.mode := .run, topology.validation := { outcome := .ok, index := 0, related := 0 } } })
      (by simp [State.enterRun, hmode, hv]) rfl
  case invalid =>
    have hv := outcome_ne_ok hcanonical hvalid
    exact ⟨hv, exec_enterRun hacts a (h := { answer := .refused .invalidTables, state :=
      { s with topology.validation := s.validate } }) (by simp [State.enterRun, hmode, hv]) rfl⟩
  case run => exact exec_enterRun hacts a (h := ⟨.done, s⟩) (by simp [State.enterRun, hmode]) rfl
  case lockedOut => exact exec_enterRun hacts a (h := .refuse .lockedOut s) (by simp [State.enterRun, hmode]) rfl

end Sys2Proof.Validation
end

section
/-! The trigger gate: a trigger that is taken, latched or lost, a latched trigger re-examined, and the end of a resolution
(R58, R147, R149 to R151). -/

namespace Sys2Proof.Triggers

open Sys2Proof.Machine Sys2Proof.Laws Sys2Proof.Kept Sys2Proof.Traffic

/-! ### What the records are called -/

theorem cancelledResult_eq (ctx : Resolution) : cancelledResult ctx = cancelledRecord ctx := rfl

theorem failedResult_eq (ctx : Resolution) (c : Conflict) : failedResult ctx c = failedRecord ctx c := rfl

theorem okResult_eq (ctx : Resolution) (p : Plan) (replaced : Bool) : okResult ctx p replaced = okRecord ctx p replaced := rfl

/-- What leaves the READ being filled alone is the whole of an event with no READ being filled. -/
theorem fillOn_of_bystander {f : State → State} (hf : Bystander f) {s : State} (hidle : s.ring.reading = none) :
    (f s).fillOn = f s :=
  fillOn_idle _ ((hf.reading s).trans hidle)

section

variable {s : State} {p : Plan}

/-! ### A trigger that is decided -/

/-- A plan is stale when its base has moved on, or when a relay it closes has been retired (R148). -/
abbrev Stale (s : State) (p : Plan) : Prop :=
  p.baseNumber ≠ s.engine.lastCompleted ∨ ∃ x ∈ p.closes, (s.wearOf x.1).health = .retired

theorem isStale_iff (s : State) (p : Plan) : s.isStale p = true ↔ Stale s p := by
  simp only [State.isStale, Bool.or_eq_true, decide_eq_true_eq, List.any_eq_true]

theorem takeTrigger_of_empty (hslot : s.gate.slot = none) : s.takeTrigger = s.raise .trigEmpty := by
  simp only [State.takeTrigger, hslot]

theorem takeTrigger_of_stale (hslot : s.gate.slot = some p) (h : Stale s p) :
    s.takeTrigger = State.raise { s with gate.slot := none } .stale := by
  simp only [State.takeTrigger, hslot, (isStale_iff s p).mpr h, if_true]

theorem takeTrigger_of_current (hslot : s.gate.slot = some p) (h : ¬ Stale s p) : s.takeTrigger = s.startStepped p := by
  simp only [State.takeTrigger, hslot, if_neg ((isStale_iff s p).not.mpr h)]

/-! ### A latched trigger re-examined (R149) -/

theorem reexamine_of_unlatched (h : s.gate.latch = false) : s.reexamine = s := by
  simp [State.reexamine, h]

theorem mustLatch_of_busy (h : s.engine.phase ≠ .idle) : s.mustLatch = true := by
  simp [State.mustLatch, h]

theorem mustLatch_of_halt (h : s.gate.mode = .halt) : s.mustLatch = true := by
  simp [State.mustLatch, h]

theorem reexamine_of_free (hlatch : s.gate.latch = true) (hphase : s.engine.phase = .idle)
    (hcontext : s.resolver.context = none) (hmode : s.gate.mode ≠ .halt) : s.reexamine = (unlatched s).takeTrigger := by
  have hmust := (mustLatch_eq_false_iff s).mpr ⟨hphase, hcontext, hmode⟩
  simp only [State.reexamine, hlatch, hmust, Bool.not_false, Bool.and_self, if_true]
  rfl

/-- A trigger stays where it is unless it is latched and the engine, the resolver and the gate are free. -/
theorem reexamine_of_stays (h : s.gate.latch = false ∨ s.engine.phase ≠ .idle ∨ s.resolver.context ≠ none ∨
    s.gate.mode = .halt) : s.reexamine = s := by
  obtain hlatch | hphase | hcontext | hmode := h
  · exact reexamine_of_unlatched hlatch
  · exact reexamine_of_mustLatch (mustLatch_of_busy hphase)
  · exact reexamine_of_mustLatch (mustLatch_of_context (Option.ne_none_iff_exists'.mp hcontext).choose_spec)
  · exact reexamine_of_mustLatch (mustLatch_of_halt hmode)

/-- The clauses of R149 and R150, with the engine and the resolver IDLE. -/
theorem reexamine_reexaminesTo (hphase : s.engine.phase = .idle) (hcontext : s.resolver.context = none) :
    s.ReexaminesTo s.reexamine where
  stays h := reexamine_of_stays (h.imp_right fun h => .inr (.inr h))
  empty hlatch hmode hslot := by
    rw [reexamine_of_free hlatch hphase hcontext hmode]
    exact takeTrigger_of_empty hslot
  stale p hlatch hmode hslot hold := by
    rw [reexamine_of_free hlatch hphase hcontext hmode]
    exact takeTrigger_of_stale (s := unlatched s) hslot hold
  starts p hlatch hmode hslot hnumber hhealth := by
    rw [reexamine_of_free hlatch hphase hcontext hmode]
    refine takeTrigger_of_current (s := unlatched s) hslot ?_
    rintro (hne | ⟨x, hx, hretired⟩)
    · exact hne hnumber
    · exact hhealth x hx hretired

/-! ### The phases of a transition (R103) -/

theorem advance_eq (s : State) : s.advance = s.enterPhase.reexamine := toldIdle_eq s.enterPhase

theorem launch_eq (s : State) : s.launch = s.beginPhases.reexamine := toldIdle_eq s.beginPhases

section
variable {t : Transition} (ht : s.engine.transition = some t)
include ht

/-- The rows of R103, for a transition `t`. -/
theorem enterPhase_eq :
    s.enterPhase =
      if s.engine.pendingOpen ≠ [] then waving s t false
      else if s.engine.pendingClose ≠ [] then waving s t true
      else s.complete t := by
  unfold State.enterPhase
  split
  next hnone => rw [ht] at hnone; cases hnone
  next u hu =>
    obtain rfl : t = u := Option.some.inj (ht.symm.trans hu)
    rfl

theorem beginPhases_eq : s.beginPhases = if t.guarded ≠ 0 then guarding s t else s.enterPhase := by
  unfold State.beginPhases
  split
  next hnone => rw [ht] at hnone; cases hnone
  next u hu =>
    obtain rfl : t = u := Option.some.inj (ht.symm.trans hu)
    rfl

theorem beginPhases_of_guarded (hguarded : t.guarded ≠ 0) : s.beginPhases = guarding s t := by
  rw [beginPhases_eq ht, if_pos hguarded]

theorem beginPhases_of_unguarded (hguarded : t.guarded = 0) : s.beginPhases = s.enterPhase := by
  rw [beginPhases_eq ht, if_neg (not_not.mpr hguarded)]

theorem enterPhase_of_opens (hopen : s.engine.pendingOpen ≠ []) : s.enterPhase = waving s t false := by
  rw [enterPhase_eq ht, if_pos hopen]

theorem enterPhase_of_closes (hopen : s.engine.pendingOpen = []) (hclose : s.engine.pendingClose ≠ []) :
    s.enterPhase = waving s t true := by
  rw [enterPhase_eq ht, if_neg (not_not.mpr hopen), if_pos hclose]

theorem enterPhase_of_done (hopen : s.engine.pendingOpen = []) (hclose : s.engine.pendingClose = []) :
    s.enterPhase = haltedFor ((ended s t).raise .done) (haltAtEnd t s.gate.mode) := by
  rw [enterPhase_eq ht, if_neg (not_not.mpr hopen), if_neg (not_not.mpr hclose), complete_eq]

/-- A transition with anything to do is in flight once it has started. -/
theorem beginPhases_busy (h : t.guarded ≠ 0 ∨ s.engine.pendingOpen ≠ [] ∨ s.engine.pendingClose ≠ []) :
    s.beginPhases.engine.phase ≠ .idle := by
  by_cases hguarded : t.guarded = 0
  · rw [beginPhases_of_unguarded ht hguarded]
    by_cases hopen : s.engine.pendingOpen = []
    · rw [enterPhase_of_closes ht hopen (by tauto)]
      simp [waving, State.formWave]
    · rw [enterPhase_of_opens ht hopen]
      simp [waving, State.formWave]
  · rw [beginPhases_of_guarded ht hguarded]
    simp [guarding]

end

/-! ### What a transition that starts leaves alone -/

/-- `u` has the latch, the slot, the ring port and the modes of `s`. -/
structure Spares (s u : State) : Prop where
  latch : u.gate.latch = s.gate.latch
  slot : u.gate.slot = s.gate.slot
  ring : u.ring = s.ring
  control : u.control = s.control

theorem spares_haltedFor (s : State) (r : Option HaltReason) : Spares s (haltedFor s r) := by
  cases r <;> exact ⟨rfl, rfl, rfl, rfl⟩

theorem spares_haltGate (s : State) (r : HaltReason) : Spares s (s.haltGate r) := by
  unfold State.haltGate
  dsimp only
  split_ifs <;> exact ⟨rfl, rfl, rfl, rfl⟩

theorem spares_enterPhase (s : State) : Spares s s.enterPhase := by
  unfold State.enterPhase
  split
  · exact ⟨rfl, rfl, rfl, rfl⟩
  next t _ =>
    split_ifs
    · exact ⟨rfl, rfl, rfl, rfl⟩
    · exact ⟨rfl, rfl, rfl, rfl⟩
    · rw [complete_eq]
      obtain ⟨hlatch, hslot, hring, hcontrol⟩ := spares_haltedFor ((ended s t).raise .done) (haltAtEnd t s.gate.mode)
      exact ⟨hlatch, hslot, hring, hcontrol⟩

theorem spares_beginPhases (s : State) : Spares s s.beginPhases := by
  unfold State.beginPhases
  split
  · exact ⟨rfl, rfl, rfl, rfl⟩
  · dsimp only
    split_ifs
    · exact ⟨rfl, rfl, rfl, rfl⟩
    · exact spares_enterPhase s

/-- A plan that starts leaves the slot EMPTY. -/
theorem spares_startStepped (s : State) (p : Plan) : Spares { s with gate.slot := none } (s.startStepped p) := by
  obtain ⟨hlatch, hslot, hring, hcontrol⟩ := spares_beginPhases (planTaken s p)
  exact ⟨hlatch, hslot, hring, hcontrol⟩

theorem takeTrigger_ring (s : State) : s.takeTrigger.ring = s.ring := by
  unfold State.takeTrigger
  split
  · split_ifs
    · rfl
    · exact (spares_startStepped s _).ring
  · rfl

theorem reexamine_ring (s : State) : s.reexamine.ring = s.ring := by
  unfold State.reexamine
  split_ifs
  · exact takeTrigger_ring _
  · rfl

theorem launch_ring (s : State) : s.launch.ring = s.ring := by
  rw [launch_eq, reexamine_ring, (spares_beginPhases s).ring]

theorem cancelResolution_ring (s : State) : s.cancelResolution.ring = s.ring := by
  unfold State.cancelResolution
  split
  · rfl
  · exact reexamine_ring _

theorem suspend_ring (s : State) (r : SuspendReason) : (s.suspend r).ring = s.ring := by
  rw [suspend_eq, gateSuspended_eq]
  split_ifs
  · rfl
  · exact (spares_haltGate _ _).ring

theorem setGateMode_ring (s : State) (m : GateMode) : (s.setGateMode m).ring = s.ring := by
  unfold State.setGateMode
  split_ifs
  · exact (spares_haltGate _ _).ring
  · exact reexamine_ring _
  · rfl

/-! ### A TRIG edge (R147) -/

theorem trigger_of_free (hmode : s.control.mode = .run) (hlatch : s.gate.latch = false) (hphase : s.engine.phase = .idle)
    (hcontext : s.resolver.context = none) (hgate : s.gate.mode ≠ .halt) : s.trigger = s.takeTrigger := by
  have hmust := (mustLatch_eq_false_iff s).mpr ⟨hphase, hcontext, hgate⟩
  simp [State.trigger, hmode, hlatch, hmust]

theorem trigger_of_latched (hmode : s.control.mode = .run) (hlatch : s.gate.latch = true) :
    s.trigger = s.raise .trigOverrun := by
  simp [State.trigger, hmode, hlatch]

theorem trigger_of_mustLatch (hmode : s.control.mode = .run) (hlatch : s.gate.latch = false) (hmust : s.mustLatch = true) :
    s.trigger =
      { s with gate.latch := true, gate.slot := s.gate.slot.map (fun p => { p with bound := true }) } := by
  simp [State.trigger, hmode, hlatch, hmust]

theorem exec_trigEdge (hidle : s.ring.reading = none) : exec .trigEdge s = .next s.trigger :=
  congrArg Host.Outcome.next (fillOn_of_bystander bystander_trigger hidle)

/-- With the latch empty, a transition that starts has no trigger to re-examine. -/
theorem startStepped_eq_launch (hlatch : s.gate.latch = false) (p : Plan) :
    s.startStepped p = (planTaken s p).launch := by
  rw [launch_eq, startStepped_eq, reexamine_of_unlatched]
  exact (spares_beginPhases (planTaken s p)).latch.trans hlatch

end

/-- Settles O22: the clauses are the rows of R147 in their order. -/
theorem triggersFollowTheTable : Obligations.TriggersFollowTheTable := by
  intro s hidle
  rw [exec_trigEdge hidle]
  refine ⟨fun hmode => ?outside, fun hmode => ⟨fun hlatch => ?lost, fun hlatch => ⟨fun hbusy => ?latched,
    fun hphase hcontext hgate => ⟨fun hslot => ?empty, fun p hslot => ?plan⟩⟩⟩⟩
  case outside => simp [State.trigger, hmode]
  case lost => rw [trigger_of_latched hmode hlatch]
  case latched =>
    have hmust : s.mustLatch = true := by
      rw [← Bool.not_eq_false, mustLatch_eq_false_iff]
      tauto
    rw [trigger_of_mustLatch hmode hlatch hmust]
  case empty => rw [trigger_of_free hmode hlatch hphase hcontext hgate, takeTrigger_of_empty hslot]
  case plan =>
    intro old started
    rw [trigger_of_free hmode hlatch hphase hcontext hgate]
    refine ⟨fun hold => ?_, fun hold => ?_⟩
    · rw [takeTrigger_of_stale hslot hold]
    · have hstart : s.startStepped p = started.launch := startStepped_eq_launch hlatch p
      rw [takeTrigger_of_current hslot hold, hstart]
      exact ⟨rfl, rfl⟩

/-! ### The end of a resolution (R58, R151) -/

section

variable {s : State} {ctx : Resolution} {p : Plan}

theorem exec_resolutionComplete (hidle : s.ring.reading = none) (hctx : s.resolver.context = some ctx) :
    exec .resolutionComplete s = .next (s.completeResolution ctx) := by
  change execResolutionComplete s = _
  rw [execResolutionComplete, hctx]
  exact congrArg Host.Outcome.next (fillOn_of_bystander (bystander_completeResolution ctx) hidle)

/-- The record written and the slot as the hand-off leaves it, before the latched trigger is re-examined. -/
def written (s : State) (result : ResultRecord) (slot : Option Plan) : State :=
  { s with resolver := { context := none, result := result }, gate.slot := slot }

theorem completeResolution_of_failure {c : Conflict} (h : s.resolve ctx = .error c) :
    s.completeResolution ctx = ((written s (failedRecord ctx c) s.gate.slot).reexamine).raise .resolveFail := by
  rw [completeResolution_of_error h]
  rfl

/-- The slot as a resolution that ends OK leaves it (R58, R59). -/
theorem resolved_eq (s : State) (ctx : Resolution) (p : Plan) :
    resolved s ctx p = ((written s (okRecord ctx p (ctx.action.stages && s.gate.slot.isSome))
      (if ctx.action = .check then s.gate.slot else some { p with bound := s.gate.latch })).reexamine).raise .resolved := by
  unfold resolved
  cases ctx.action <;> rfl

/-- What the resolution's end comes to once its record is written and its plan handed on. -/
theorem resolutionComplete_cases (hidle : s.ring.reading = none) (hctx : s.resolver.context = some ctx)
    {result : ResultRecord} {slot : Option Plan} {cause : Cause}
    (h : (∃ c, s.resolve ctx = .error c ∧ result = failedRecord ctx c ∧ slot = s.gate.slot ∧ cause = .resolveFail) ∨
      ∃ p, s.resolve ctx = .ok p ∧ ctx.action ≠ .apply ∧
        result = okRecord ctx p (decide (ctx.action = .stage) && s.gate.slot.isSome) ∧
        slot = (if ctx.action = .check then s.gate.slot else some { p with bound := s.gate.latch }) ∧
        cause = .resolved) :
    exec .resolutionComplete s = .next ((written s result slot).reexamine.raise cause) := by
  rw [exec_resolutionComplete hidle hctx]
  obtain ⟨c, hc, rfl, rfl, rfl⟩ | ⟨p, hp, happly, rfl, rfl, rfl⟩ := h
  · rw [completeResolution_of_failure hc]
  · have hstages : ctx.action.stages = decide (ctx.action = .stage) := by
      cases haction : ctx.action with
      | check | stage => rfl
      | apply => exact absurd haction happly
    rw [completeResolution_of_ok hp, if_neg happly, resolved_eq, hstages]

end

/-- Settles O28: once the record is written the resolver is IDLE, and the latched trigger goes by R149. -/
theorem resolutionsEndWithTheirRecord : Obligations.ResolutionsEndWithTheirRecord := by
  intro s ctx result slot cause hidle hctx h ended
  rw [resolutionComplete_cases hidle hctx h]
  refine ⟨fun hstays => ?stays, fun hlatch hphase hmode => ?free⟩
  case stays =>
    have hkept : ended.reexamine = ended := reexamine_of_stays (by tauto)
    exact congrArg (fun u : State => Host.Outcome.next (u.raise cause)) hkept
  case free =>
    have hr : ended.ReexaminesTo ended.reexamine := reexamine_reexaminesTo hphase rfl
    refine ⟨fun hslot => ?_, fun q hslot => ⟨fun hold => ?_, fun hold => ?_⟩⟩
    · exact congrArg (fun u : State => Host.Outcome.next (u.raise cause)) (hr.empty hlatch hmode hslot)
    · exact congrArg (fun u : State => Host.Outcome.next (u.raise cause)) (hr.stale q hlatch hmode hslot hold)
    · rw [not_or, not_not, not_exists] at hold
      exact congrArg (fun u : State => Host.Outcome.next (u.raise cause))
        (hr.starts q hlatch hmode hslot hold.1 fun x hx hretired => hold.2 x ⟨hx, hretired⟩)

/-- Settles O29: the plan is in the slot when the latched trigger is re-examined, and the APPLY's own trigger meets what
that leaves. -/
theorem applyDeliversItsTriggerLast : Obligations.ApplyDeliversItsTriggerLast := by
  intro s ctx p hidle hctx hp happly hrun record old answer
  let told : State := written s (okRecord ctx p s.gate.slot.isSome) (some { p with bound := s.gate.latch })
  have hexec : ∀ t, (told.reexamine.raise .resolved).trigger = t → answer t := by
    rintro t rfl
    change exec .resolutionComplete s = _
    rw [exec_resolutionComplete hidle hctx, completeResolution_of_ok hp, if_pos happly, resolved_eq, happly]
    rfl
  refine ⟨fun hbusy => ?busy, fun hphase hmode => ⟨fun hlatch => ⟨fun hold => ?stale, fun hold => ?taken⟩,
    fun hlatch => ?latched⟩⟩
  case busy =>
    have hkept : told.reexamine = told := reexamine_of_stays (by tauto)
    have hmust : (told.raise .resolved).mustLatch = true :=
      hbusy.elim (fun h => mustLatch_of_busy h) (fun h => mustLatch_of_halt h)
    refine ⟨fun hlatch => hexec _ ?_, fun hlatch => hexec _ ?_⟩
    · rw [hkept, trigger_of_mustLatch (s := told.raise .resolved) hrun hlatch hmust]
      rfl
    · rw [hkept, trigger_of_latched (s := told.raise .resolved) hrun hlatch]
      simp only [told, hlatch]
      rfl
  case stale =>
    have hkept : told.reexamine = told := reexamine_of_unlatched hlatch
    refine hexec _ ?_
    rw [hkept, trigger_of_free (s := told.raise .resolved) hrun hlatch hphase rfl hmode]
    exact takeTrigger_of_stale (s := told.raise .resolved) rfl hold
  case taken =>
    have hkept : told.reexamine = told := reexamine_of_unlatched hlatch
    refine hexec _ ?_
    rw [hkept, trigger_of_free (s := told.raise .resolved) hrun hlatch hphase rfl hmode,
      takeTrigger_of_current (s := told.raise .resolved) rfl hold]
    simp only [told, hlatch]
    rfl
  case latched =>
  intro freed started
  have htold : told.reexamine = freed.takeTrigger := by
    rw [reexamine_of_free (s := told) hlatch hphase rfl hmode]
    simp only [told, hlatch]
    rfl
  refine ⟨fun hold => ?latchedStale, fun hold => ?latchedTaken⟩
  case latchedStale =>
    refine hexec _ ?_
    rw [htold, takeTrigger_of_stale (s := freed) rfl hold]
    exact (trigger_of_free (s := State.raise (State.raise { freed with gate.slot := none } .stale) .resolved)
      hrun rfl hphase rfl hmode).trans (takeTrigger_of_empty rfl)
  case latchedTaken =>
    obtain ⟨hslatch, hsslot, -, hscontrol⟩ := spares_startStepped freed { p with bound := true }
    have hsrun : started.control.mode = .run := (congrArg Control.mode hscontrol).trans hrun
    have hscontext : started.resolver.context = none :=
      congrArg Resolver.context (beginPhases_resolver (planTaken freed { p with bound := true }))
    have hsstart : told.reexamine.raise .resolved = started := by
      rw [htold, takeTrigger_of_current (s := freed) rfl hold]
    refine ⟨fun hon => hexec _ ?_, fun hphase' hmode' => hexec _ ?_, fun hwork => ?_⟩
    · have hmust : started.mustLatch = true := hon.elim (fun h => mustLatch_of_busy h) (fun h => mustLatch_of_halt h)
      have hempty : started.gate.slot = none := hsslot
      rw [hsstart, trigger_of_mustLatch hsrun hslatch hmust]
      simp only [hempty, Option.map_none]
    · rw [hsstart, trigger_of_free hsrun hslatch hphase' hscontext hmode', takeTrigger_of_empty (s := started) hsslot]
    · exact beginPhases_busy (s := planTaken freed { p with bound := true }) rfl
        (hwork.imp id (Or.imp id (mt List.map_eq_nil_iff.mp)))

end Sys2Proof.Triggers
end

section
/-! The CONTROL and STEP frames that are acted on, and POLL: what each row answers (R37, R127 to R137, R145, R155, R182,
R184, R192). -/

namespace Sys2Proof.Operations

open Sys2Proof.Machine Sys2Proof.Laws Sys2Proof.Kept Sys2Proof.Triggers

/-! ### The rows -/

/-- A CONTROL row is its operation's examination and its answer. -/
structure ControlRow (row : Envelope → ControlArg → Instr) (op : Operation) (handle : State → ControlArg → Handled) :
    Prop where
  exec : ∀ e a s, exec (row e a) s = .next (s.finishRead.receiveControl e a op (handle s.finishRead a))

/-- A STEP row is its examination and its answer. -/
structure StepRow (row : Envelope → StepArg → Instr) (code : BitVec 2) (handle : State → StepArg → Handled) : Prop where
  exec : ∀ e a s, exec (row e a) s = .next (s.finishRead.receivePlain kindStep (stepArgWord a code) e (handle s.finishRead a))

theorem row_enterRun : ControlRow .enterRun .enterRun (fun s _ => s.enterRun) := ⟨fun _ _ _ => rfl⟩
theorem row_enterConfigure : ControlRow .enterConfigure .enterConfigure (fun s _ => s.enterConfigure) := ⟨fun _ _ _ => rfl⟩
theorem row_setGate : ControlRow .setGate .setGate (fun s a => s.setGate a.operand) := ⟨fun _ _ _ => rfl⟩
theorem row_abort : ControlRow .abort .abort (fun s _ => s.abort) := ⟨fun _ _ _ => rfl⟩
theorem row_resume : ControlRow .resume .resume (fun s _ => s.resume) := ⟨fun _ _ _ => rfl⟩
theorem row_rollback : ControlRow .rollback .rollback (fun s _ => s.rollback) := ⟨fun _ _ _ => rfl⟩
theorem row_safeOpen : ControlRow .safeOpen .safeOpen (fun s _ => s.safeOpen) := ⟨fun _ _ _ => rfl⟩
theorem row_discardStaged : ControlRow .discardStaged .discardStaged (fun s _ => s.discardStaged) := ⟨fun _ _ _ => rfl⟩
theorem row_stepCheck : StepRow .stepCheck 0 (fun s a => s.acceptStep a .check) := ⟨fun _ _ _ => rfl⟩
theorem row_stepStage : StepRow .stepStage 1 (fun s a => s.acceptStep a .stage) := ⟨fun _ _ _ => rfl⟩
theorem row_stepApply : StepRow .stepApply 2 (fun s a => s.acceptStep a .apply) := ⟨fun _ _ _ => rfl⟩
theorem row_stepBadAction : StepRow .stepBadAction 3 (fun s _ => s.refuseAction) := ⟨fun _ _ _ => rfl⟩

section

variable {s : State} {e : Envelope} {b : Bool}

theorem ControlRow.answers {row : Envelope → ControlArg → Instr} {op : Operation} {handle : State → ControlArg → Handled}
    (hrow : ControlRow row op handle) (hacts : s.ActsOn e b) (a : ControlArg) {h : Handled} (hh : handle s a = h)
    (haddress : h.state.ring.address = s.ring.address) :
    Machine.exec (row e a) s = .next (h.state.replies kindControl (controlArgWord a op.code) e b h.answer) := by
  rw [hrow.exec, finishRead_idle s hacts.1.2.2, hh, ControlFrames.receiveControl_of_actsOn hacts a op h haddress]

theorem StepRow.answers {row : Envelope → StepArg → Instr} {code : BitVec 2} {handle : State → StepArg → Handled}
    (hrow : StepRow row code handle) (hacts : s.ActsOn e b) (a : StepArg) {h : Handled} (hh : handle s a = h)
    (haddress : h.state.ring.address = s.ring.address) :
    Machine.exec (row e a) s = .next (h.state.replies kindStep (stepArgWord a code) e b h.answer) := by
  rw [hrow.exec, finishRead_idle s hacts.1.2.2, hh, receivePlain_of_actsOn s _ _ e b h hacts, State.replies, haddress]

/-! ### Refusals (R37, R182) -/

theorem unlessLocked_of_lockedOut (hmode : s.control.mode = .lockedOut) (h : Handled) :
    s.unlessLocked h = .refuse .lockedOut s := if_pos hmode

theorem unlessLocked_of_open (hmode : s.control.mode ≠ .lockedOut) (h : Handled) : s.unlessLocked h = h := if_neg hmode

theorem acceptStep_of_lockedOut (hmode : s.control.mode = .lockedOut) (a : StepArg) (action : Action) :
    s.acceptStep a action = .refuse .lockedOut s := by
  simp only [State.acceptStep, hmode]

theorem acceptStep_of_configure (hmode : s.control.mode = .configure) (a : StepArg) (action : Action) :
    s.acceptStep a action = .refuse .wrongMode s := by
  simp only [State.acceptStep, hmode]

/-- Every mode code but 3 names a mode (R37). -/
theorem stepMode_of_ne {c : BitVec 2} (h : c ≠ 3) : ∃ mode, StepMode.ofCode c = some mode ∧
    (c = 0 ∧ mode = .replace ∨ c = 1 ∧ mode = .add ∨ c = 2 ∧ mode = .clear) := by
  revert h
  revert c
  decide

theorem acceptStep_of_badMode (hmode : s.control.mode = .run) {a : StepArg} (ha : a.mode = 3) (action : Action) :
    s.acceptStep a action = .refuse .badArgument s := by
  simp only [State.acceptStep, hmode, ha]
  rfl

theorem acceptStep_of_resolving (hmode : s.control.mode = .run) {a : StepArg} (ha : a.mode ≠ 3)
    (hcontext : s.resolver.context ≠ none) (action : Action) : s.acceptStep a action = .busy .resolving s := by
  obtain ⟨mode, hcode, -⟩ := stepMode_of_ne ha
  simp only [State.acceptStep, hmode, hcode, Option.isSome_iff_ne_none.mpr hcontext, if_true]

/-- The last check of R37: a bound plan stands in the way of STAGE and APPLY. -/
theorem bound_iff : s.gate.slot.any (fun p => p.bound) = true ↔ ∃ q, s.gate.slot = some q ∧ q.bound = true := by
  cases s.gate.slot <;> simp

theorem acceptStep_of_bound (hmode : s.control.mode = .run) {a : StepArg} (ha : a.mode ≠ 3)
    (hcontext : s.resolver.context = none) {action : Action} (hstages : action.stages = true)
    (hbound : ∃ q, s.gate.slot = some q ∧ q.bound = true) : s.acceptStep a action = .busy .bound s := by
  obtain ⟨mode, hcode, -⟩ := stepMode_of_ne ha
  simp [State.acceptStep, hmode, hcode, hcontext, hstages, bound_iff.mpr hbound]

theorem acceptStep_of_taken (hmode : s.control.mode = .run) {a : StepArg} {mode : StepMode}
    (hcode : StepMode.ofCode a.mode = some mode) (hcontext : s.resolver.context = none) {action : Action}
    (hfree : action = .check ∨ ∀ p, s.gate.slot = some p → p.bound = false) :
    s.acceptStep a action =
      { answer := .accepted, state := { s with resolver.context := some (s.contextFor a mode action) } } := by
  have hbound : (action.stages && s.gate.slot.any (fun p => p.bound)) = false := by
    obtain rfl | hfree := hfree
    · rfl
    · cases hslot : s.gate.slot with
      | none => simp
      | some p => simp [hfree p hslot]
  simp only [State.acceptStep, hmode, hcode, hcontext, hbound, Option.isSome_none, Bool.false_eq_true, if_false]

end

/-- Settles O21: each row refuses by its first check that fails, with the state as it was. -/
theorem stepsAndOperationsRefuseInOrder : Obligations.StepsAndOperationsRefuseInOrder := by
  intro s e a p b hacts answer
  refine ⟨fun hmode => ⟨?operations, ?stepsLocked⟩, fun operation => ?unnamed, fun hmode => ?configure,
    fun hmode => ⟨?badAction, ?steps⟩⟩
  case operations =>
    have hlocked := fun h => unlessLocked_of_lockedOut hmode h
    simp only [List.forall_mem_cons, List.not_mem_nil, IsEmpty.forall_iff, implies_true, and_true]
    exact ⟨row_enterRun.answers hacts a (h := .refuse .lockedOut s) (by simp only [State.enterRun, hmode]) rfl,
      row_enterConfigure.answers hacts a (h := .refuse .lockedOut s) (by simp only [State.enterConfigure, hmode]) rfl,
      row_setGate.answers hacts a (hlocked _) rfl, row_abort.answers hacts a (hlocked _) rfl,
      row_resume.answers hacts a (hlocked _) rfl, row_rollback.answers hacts a (hlocked _) rfl,
      row_safeOpen.answers hacts a (h := .refuse .lockedOut s) (by simp only [State.safeOpen, hmode]) rfl,
      row_discardStaged.answers hacts a (hlocked _) rfl⟩
  case stepsLocked =>
    simp only [List.forall_mem_cons, List.not_mem_nil, IsEmpty.forall_iff, implies_true, and_true]
    exact ⟨row_stepCheck.answers hacts p (acceptStep_of_lockedOut hmode p _) rfl,
      row_stepStage.answers hacts p (acceptStep_of_lockedOut hmode p _) rfl,
      row_stepApply.answers hacts p (acceptStep_of_lockedOut hmode p _) rfl,
      row_stepBadAction.answers hacts p (h := .refuse .lockedOut s) (by simp only [State.refuseAction, hmode]) rfl⟩
  case unnamed =>
    change execControlBadOperation e a operation s = _
    rw [execControlBadOperation, finishRead_idle s hacts.1.2.2, receivePlain_of_actsOn s _ _ e b _ hacts]
    rfl
  case configure =>
    simp only [List.forall_mem_cons, List.not_mem_nil, IsEmpty.forall_iff, implies_true, and_true]
    exact ⟨row_stepCheck.answers hacts p (acceptStep_of_configure hmode p _) rfl,
      row_stepStage.answers hacts p (acceptStep_of_configure hmode p _) rfl,
      row_stepApply.answers hacts p (acceptStep_of_configure hmode p _) rfl,
      row_stepBadAction.answers hacts p (h := .refuse .wrongMode s) (by simp only [State.refuseAction, hmode]) rfl⟩
  case badAction =>
    exact row_stepBadAction.answers hacts p (h := .refuse .badArgument s) (by simp only [State.refuseAction, hmode]) rfl
  case steps =>
    have hchecks : ∀ {row : Envelope → StepArg → Instr} {code : BitVec 2} {action : Action},
        StepRow row code (fun s a => s.acceptStep a action) → (code ≠ 0 → action.stages = true) →
        (p.mode = 3 → answer (row e p, code) (.refused .badArgument)) ∧
        (p.mode ≠ 3 → s.resolver.context ≠ none → answer (row e p, code) (.busy .resolving)) ∧
        (p.mode ≠ 3 → s.resolver.context = none → code ≠ 0 → (∃ q, s.gate.slot = some q ∧ q.bound = true) →
          answer (row e p, code) (.busy .bound)) := fun hrow hstages =>
      ⟨fun hbad => hrow.answers hacts p (acceptStep_of_badMode hmode hbad _) rfl,
        fun hgood hcontext => hrow.answers hacts p (acceptStep_of_resolving hmode hgood hcontext _) rfl,
        fun hgood hcontext hcode hbound =>
          hrow.answers hacts p (acceptStep_of_bound hmode hgood hcontext (hstages hcode) hbound) rfl⟩
    simp only [List.forall_mem_cons, List.not_mem_nil, IsEmpty.forall_iff, implies_true, and_true]
    exact ⟨hchecks row_stepCheck (fun h => absurd rfl h), hchecks row_stepStage fun _ => rfl,
      hchecks row_stepApply fun _ => rfl⟩

/-! ### SET_GATE and DISCARD_STAGED (R145, R155) -/

theorem gateMode_of_high {v : BitVec 16} (h : 3 < v.toNat) : GateMode.ofOperand v = none := by
  unfold GateMode.ofOperand
  split <;> simp_all

section

variable {s : State}

theorem setGate_of_mode (hmode : s.control.mode ≠ .lockedOut) {v : BitVec 16} {m : GateMode}
    (hv : GateMode.ofOperand v = some m) : s.setGate v = { answer := .done, state := s.setGateMode m } := by
  rw [State.setGate, unlessLocked_of_open hmode, hv]

theorem setGateMode_halt_of_halt (hgate : s.gate.mode = .halt) :
    s.setGateMode .halt = { s with gate.reason := .command } := by
  rw [State.setGateMode, if_pos rfl, haltGate_eq, if_pos hgate, ← hgate]

theorem setGateMode_halt_of_open (hgate : s.gate.mode ≠ .halt) :
    s.setGateMode .halt = State.raise { s with gate.mode := .halt, gate.reason := .command } .halted := by
  rw [State.setGateMode, if_pos rfl, haltGate_eq, if_neg hgate]
  rfl

theorem setGateMode_of_open {m : GateMode} (hm : m ≠ .halt) (hgate : s.gate.mode ≠ .halt) :
    s.setGateMode m = { s with gate.mode := m } := by
  rw [State.setGateMode, if_neg hm, if_neg hgate]

theorem setGateMode_of_halt {m : GateMode} (hm : m ≠ .halt) (hgate : s.gate.mode = .halt) :
    s.setGateMode m = State.reexamine { s with gate.mode := m, gate.reason := .none } := by
  rw [State.setGateMode, if_neg hm, if_pos hgate]

end

/-- Settles O23: the operand names the mode, and a gate that leaves HALT re-examines its latch. -/
theorem setGateFollowsTheTableAndDiscardEmpties : Obligations.SetGateFollowsTheTableAndDiscardEmpties := by
  intro s e a b hacts hmode
  refine ⟨row_discardStaged.answers hacts a (unlessLocked_of_open hmode _) rfl, ?_⟩
  intro answer
  have hset : ∀ {m : GateMode} {t : State}, GateMode.ofOperand a.operand = some m → s.setGateMode m = t → answer t .done := by
    rintro m _ hm rfl
    exact row_setGate.answers hacts a (setGate_of_mode hmode hm) (congrArg RingPort.address (setGateMode_ring s m))
  refine ⟨fun hhigh => ?unnamed, fun hop hgate => hset (m := .halt) (by rw [hop]; rfl) (setGateMode_halt_of_halt hgate),
    fun hop hgate => hset (m := .halt) (by rw [hop]; rfl) (setGateMode_halt_of_open hgate), fun m hm => ?mode⟩
  case unnamed =>
    refine row_setGate.answers hacts a (h := .refuse .badArgument s) ?_ rfl
    rw [State.setGate, unlessLocked_of_open hmode, gateMode_of_high hhigh]
  case mode =>
    have hcode : GateMode.ofOperand a.operand = some m ∧ m ≠ .halt := by
      obtain ⟨hop, rfl⟩ | ⟨hop, rfl⟩ | ⟨hop, rfl⟩ := hm <;> exact ⟨by rw [hop]; rfl, by decide⟩
    obtain ⟨hcode, hm⟩ := hcode
    refine ⟨fun hgate => hset hcode (setGateMode_of_open hm hgate), fun hgate => ?_⟩
    have hleaves := setGateMode_of_halt hm hgate
    refine ⟨fun hstays => ?stays, fun hlatch hphase hcontext hslot => ?empty, fun p hlatch hphase hcontext hslot => ?plan⟩
    case stays =>
      refine hset hcode (hleaves.trans (reexamine_of_stays ?_))
      obtain h | h | h := hstays
      · exact .inl h
      · exact .inr (.inl h)
      · exact .inr (.inr (.inl h))
    all_goals
      have hr : State.ReexaminesTo { s with gate.mode := m, gate.reason := .none } (s.setGateMode m) :=
        hleaves ▸ reexamine_reexaminesTo hphase hcontext
    case empty => exact hset hcode (hr.empty hlatch hm hslot)
    case plan =>
      intro left old
      refine ⟨fun hold => hset hcode (hr.stale p hlatch hm hslot hold), fun hold => ?_⟩
      rw [not_or, not_not, not_exists] at hold
      exact hset hcode (hr.starts p hlatch hm hslot hold.1 fun x hx hretired => hold.2 x ⟨hx, hretired⟩)

/-! ### An accepted STEP (R36 to R39) -/

/-- The mask with the bits of the disabled sites cleared. -/
theorem getLsbD_foldl_clear (keeps : Nat → Bool) (mask : BitVec 9) (n j : Nat) (hj : j < 9) :
    ((List.range n).foldl (fun m k => if keeps k then m else m &&& ~~~(1#9 <<< k)) mask).getLsbD j =
      (mask.getLsbD j && (keeps j || decide (n ≤ j))) := by
  induction n with
  | zero => simp
  | succ n ih =>
    rw [List.range_succ, List.foldl_append, List.foldl_cons, List.foldl_nil]
    generalize (List.range n).foldl (fun m k => if keeps k then m else m &&& ~~~(1#9 <<< k)) mask = m at ih ⊢
    have hbit : (1#9 <<< n).getLsbD j = decide (n = j) := by
      rw [← BitVec.twoPow_eq, BitVec.getLsbD_twoPow]
      by_cases h : n = j <;> simp [h, hj]
    have hle : n ≠ j → (n + 1 ≤ j ↔ n ≤ j) := by omega
    split
    next hk =>
      rw [ih]
      by_cases hn : n = j
      · subst hn
        simp [hk]
      · rw [decide_eq_decide.mpr (hle hn)]
    next hk =>
      rw [BitVec.getLsbD_and, BitVec.getLsbD_not, ih, hbit]
      by_cases hn : n = j
      · subst hn
        simp [hk]
      · have hlt : n < j ↔ n ≤ j := hle hn
        simp [hn, hj, hlt]

theorem getLsbD_effectiveMask (s : State) (mask : BitVec 9) {j : Nat} (hj : j < 9) :
    (s.effectiveMask mask).getLsbD j = (mask.getLsbD j && (s.topology.sites.get false j || decide (8 ≤ j))) :=
  getLsbD_foldl_clear (fun k => s.topology.sites.get false k) mask 8 j hj

section

variable {s : State} {a : StepArg} {mode : StepMode} {action : Action}

/-- A step that reads no set has none in use (R34, R37). -/
theorem contextFor_clear : (s.contextFor a .clear action).usable = true ∧ (s.contextFor a .clear action).stop = false ∧
    (s.contextFor a .clear action).inUse = none := by
  simp [State.contextFor]

/-- The set in use of a step that reads one, with the test of its entry (R20, R34). -/
theorem contextFor_reads (hmode : mode ≠ .clear) :
    let entry := s.store.directory.get .initial a.routeSet.toNat
    let usable := entry.defined = true ∧ entry.first.toNat + entry.count.toNat ≤ 2048
    ((s.contextFor a mode action).usable = true ↔ usable) ∧ (s.contextFor a mode action).stop = entry.stop ∧
      ∃ u, (s.contextFor a mode action).inUse = some u ∧ u.dir = a.routeSet.toNat ∧
        (usable → u.first = entry.first.toNat ∧ u.count = entry.count.toNat) ∧ (¬ usable → u.count = 0) := by
  intro entry usable
  have hreads : decide (mode ≠ .clear) = true := decide_eq_true hmode
  have htest : (entry.defined && decide (entry.first.toNat + entry.count.toNat ≤ 2048)) = true ↔ usable := by
    rw [Bool.and_eq_true, decide_eq_true_eq]
  refine ⟨?_, ?_, ⟨_, if_pos hreads, rfl, fun h => ⟨rfl, if_pos (htest.mpr h)⟩, fun h => if_neg (htest.not.mpr h)⟩⟩
  · simp only [State.contextFor, hreads, Bool.not_true, Bool.or_false]
    exact htest
  · simp only [State.contextFor, hreads, Bool.true_and]
    rfl

end

/-- Settles O27: a STEP that is accepted leaves the context that `contextFor` builds. -/
theorem acceptedStepsFixTheirContext : Obligations.AcceptedStepsFixTheirContext := by
  intro s e a b hacts hrun hmode hcontext
  obtain ⟨mode, hcode, hnames⟩ := stepMode_of_ne hmode
  intro row hrow hfree
  obtain ⟨make, hmake, hrow⟩ : ∃ make, make e a = row.1 ∧ StepRow make row.2.1 (fun s a => s.acceptStep a row.2.2) := by
    simp only [List.mem_cons, List.not_mem_nil, or_false] at hrow
    obtain rfl | rfl | rfl := hrow
    · exact ⟨.stepCheck, rfl, row_stepCheck⟩
    · exact ⟨.stepStage, rfl, row_stepStage⟩
    · exact ⟨.stepApply, rfl, row_stepApply⟩
  rw [← hmake]
  have hadd : a.mode ≠ 1 ↔ mode ≠ .add := by
    obtain ⟨h, rfl⟩ | ⟨h, rfl⟩ | ⟨h, rfl⟩ := hnames <;> simp [h]
  have hclear : a.mode = 2 ↔ mode = .clear := by
    obtain ⟨h, rfl⟩ | ⟨h, rfl⟩ | ⟨h, rfl⟩ := hnames <;> simp [h]
  refine ⟨s.contextFor a mode row.2.2, hrow.answers hacts a (acceptStep_of_taken hrun hcode hcontext hfree) rfl, rfl, rfl,
    rfl, hnames, rfl, rfl, fun k hk => ?_, ?_, fun hwf r => ?_, rfl, fun h => ?_, fun h => ?_⟩
  · have heffective := getLsbD_effectiveMask s a.owners (j := k) (by omega)
    rwa [decide_eq_false (by omega : ¬ 8 ≤ k), Bool.or_false] at heffective
  · have heffective := getLsbD_effectiveMask s a.owners (j := 8) (by omega)
    rwa [decide_eq_true (le_refl 8), Bool.or_true, Bool.and_true] at heffective
  · exact (Targets.ownerOf_startingTarget hwf mode _ r).trans (if_congr (and_congr_left fun _ => hadd.symm) rfl rfl)
  · obtain rfl := hclear.mp h
    exact contextFor_clear
  · exact contextFor_reads (hclear.not.mp h)

/-! ### POLL (R184, R192) -/

theorem level_pos (c : Cause) : 0 < c.level := by
  cases c <;> decide

theorem mem_allCauses (c : Cause) : c ∈ allCauses := by
  cases c <;> decide

section

variable {s : State}

/-- The claim level is the largest level of a cause that calls, or 0 with none. -/
theorem claimLevel_spec (s : State) : (∀ c, s.calls c = true → c.level ≤ s.claimLevel) ∧
    (s.claimLevel = 0 ∨ ∃ c, s.calls c = true ∧ c.level = s.claimLevel) := by
  have hlevel : s.claimLevel = ((allCauses.filter (fun c => s.calls c)).map Cause.level).foldl max 0 := by
    rw [State.claimLevel, List.foldl_map]
  obtain ⟨⟨-, habove⟩, hattained, -⟩ :=
    Plans.foldl_max_spec ((allCauses.filter (fun c => s.calls c)).map Cause.level) 0
  rw [hlevel]
  refine ⟨fun c hc => habove _ (List.mem_map_of_mem (List.mem_filter.mpr ⟨mem_allCauses c, hc⟩)), hattained.imp_right ?_⟩
  intro hmem
  obtain ⟨c, hc, heq⟩ := List.mem_map.mp hmem
  exact ⟨c, (List.mem_filter.mp hc).2, heq⟩

theorem beats_iff (s : State) (w : Word) : s.beats w = true ↔
    s.claimLevel ≠ 0 ∧ (w.getLsbD 31 = false ∨ (w.extractLsb' 8 3).toNat < s.claimLevel ∨
      (w.extractLsb' 8 3).toNat = s.claimLevel ∧ w.extractLsb' 4 4 < s.control.params.arbitration) := by
  simp [State.beats, BitVec.lt_def, or_assoc]

theorem length_eq_zero_iff {e : Envelope} (hlength : LengthAgrees e) : e.length = 0 ↔ e.payload = [] := by
  obtain ⟨heq, -⟩ := hlength
  rw [← List.length_eq_zero_iff, ← heq]
  exact BitVec.toNat_eq

/-- A POLL that is not marked is taken whatever its destination and status, but for an empty one. -/
theorem exec_poll_unmarked {e : Envelope} (hlistens : s.Listens) (hmark : e.marks.getLsbD 0 = false)
    (hlength : LengthAgrees e) (arg : Word) :
    exec (.poll e arg) s = .next (s.send (sealedWords kindPoll arg
      (if e.payload = [] then refusedBroadcast e s.ring.address else s.polled e))) := by
  obtain ⟨hlock, hreset, hidle⟩ := hlistens
  have hcorrupt : isCorrupt e = false := hmark
  have hgood := (lengthBad_eq_false_iff e).mpr hlength
  rw [RingPort.exec_poll e arg hidle]
  by_cases hwords : e.payload = []
  · simp [hlock, hreset, hcorrupt, hwords, (length_eq_zero_iff hlength).mpr hwords]
  · have hlong := (length_eq_zero_iff hlength).not.mpr hwords
    simp only [hlock, hreset, hcorrupt, hgood, hwords, hlong, Option.isSome_none, Bool.or_false, Bool.false_eq_true,
      decide_false, if_false]

end

/-- Settles O26: `beats` compares the claim with the winner in word 0, and `polled` counts this controller. -/
theorem pollsKeepTheGreatestClaim : Obligations.PollsKeepTheGreatestClaim := by
  intro s e arg hlistens hmark hlength
  obtain ⟨habove, hattained⟩ := claimLevel_spec s
  refine ⟨fun hempty => by rw [exec_poll_unmarked hlistens hmark hlength, if_pos hempty]; rfl, habove, ?_, fun w ws hwords => ?_⟩
  · refine hattained.imp_left fun hzero => ⟨hzero, fun c => ?_⟩
    by_contra hcalls
    have hlevel := habove c (by simpa using hcalls)
    have hpos := level_pos c
    omega
  · intro claim wins
    rw [exec_poll_unmarked hlistens hmark hlength, if_neg (by simp [hwords]), State.polled, hwords]
    refine ⟨fun hwins => ?_, fun hloses => ?_⟩
    · simp only [(beats_iff s w).mpr hwins, if_true]
      rfl
    · simp only [if_neg ((beats_iff s w).not.mpr hloses)]
      rw [← hwords]
      rfl

end Sys2Proof.Operations
end

section
/-! The transition engine: its phases, the guard wait, the ends of waves, and the recovery operations (R84 to R86, R102 to
R113, R127 to R140, R153). -/

namespace Sys2Proof.EnginePhases

open Sys2Proof.Machine Sys2Proof.Laws Sys2Proof.Kept Sys2Proof.Traffic Sys2Proof.Triggers Sys2Proof.Operations

/-! ### Phases and completion (R103, R113, R153) -/

section

variable {s : State} {t : Transition}

/-- Where the engine has not become IDLE, no trigger is re-examined. -/
theorem launch_of_busy (h : s.beginPhases.engine.phase ≠ .idle) : s.launch = s.beginPhases := by
  rw [launch_eq, reexamine_of_stays (.inr (.inl h))]

theorem advance_of_busy (h : s.enterPhase.engine.phase ≠ .idle) : s.advance = s.enterPhase := by
  rw [advance_eq, reexamine_of_stays (.inr (.inl h))]

theorem launch_of_guarded (ht : s.engine.transition = some t) (hguarded : t.guarded ≠ 0) : s.launch = guarding s t := by
  rw [launch_of_busy (beginPhases_busy ht (.inl hguarded)), beginPhases_of_guarded ht hguarded]

theorem launch_of_unguarded (ht : s.engine.transition = some t) (hguarded : t.guarded = 0) : s.launch = s.advance := by
  rw [launch_eq, beginPhases_of_unguarded ht hguarded, advance_eq]

theorem advance_of_opens (ht : s.engine.transition = some t) (hopen : s.engine.pendingOpen ≠ []) :
    s.advance = waving s t false := by
  have hphase := enterPhase_of_opens ht hopen
  rw [advance_of_busy (by rw [hphase]; simp [waving, State.formWave]), hphase]

theorem advance_of_closes (ht : s.engine.transition = some t) (hopen : s.engine.pendingOpen = [])
    (hclose : s.engine.pendingClose ≠ []) : s.advance = waving s t true := by
  have hphase := enterPhase_of_closes ht hopen hclose
  rw [advance_of_busy (by rw [hphase]; simp [waving, State.formWave]), hphase]

/-- A completion that halts the gate leaves a latched trigger in the latch. -/
theorem advance_of_halt (ht : s.engine.transition = some t) (hopen : s.engine.pendingOpen = [])
    (hclose : s.engine.pendingClose = []) {r : HaltReason} (hhalt : haltAtEnd t s.gate.mode = some r) :
    s.advance = State.raise (State.raise { ended s t with gate.mode := .halt, gate.reason := r } .done) .halted := by
  rw [advance_eq, enterPhase_of_done ht hopen hclose, hhalt]
  exact reexamine_of_stays (.inr (.inr (.inr rfl)))

/-- A completion that does not halt the gate has a latched trigger re-examined. -/
theorem advance_of_done (ht : s.engine.transition = some t) (hopen : s.engine.pendingOpen = [])
    (hclose : s.engine.pendingClose = []) (hhalt : haltAtEnd t s.gate.mode = none) :
    s.advance = ((ended s t).raise .done).reexamine := by
  rw [advance_eq, enterPhase_of_done ht hopen hclose, hhalt]
  rfl

end

/-- Settles O41: the rows of R103, and the rows of R153 as the transition completes. -/
theorem phasesFollowTheTable : Obligations.PhasesFollowTheTable := by
  intro s t ht
  refine ⟨launch_of_guarded ht, launch_of_unguarded ht, advance_of_opens ht, advance_of_closes ht, fun hopen hclose => ?_⟩
  intro ended
  have hhalted : ∀ {r}, haltAtEnd t s.gate.mode = some r → s.advance =
      State.raise (State.raise { ended with gate.mode := .halt, gate.reason := r } .done) .halted :=
    advance_of_halt ht hopen hclose
  refine ⟨fun hkind hmode hstop => hhalted ?_, fun hkind hmode => hhalted ?_, fun hgoes => ?_⟩
  · simp [haltAtEnd, gateHalt, hkind, hmode, hstop]
  · simp [haltAtEnd, gateHalt, hkind, hmode]
  have hnone : haltAtEnd t s.gate.mode = none := by
    obtain hkind | ⟨hmode, hstop⟩ | hmode | hmode := hgoes
    · simp [haltAtEnd, hkind]
    · simp [haltAtEnd, gateHalt, hmode, hstop]
    · simp [haltAtEnd, gateHalt, hmode]
    · simp [haltAtEnd, gateHalt, hmode]
  have hdone : s.advance = (ended.raise .done).reexamine := advance_of_done ht hopen hclose hnone
  refine ⟨fun hstays => ?stays, fun hlatch hcontext hmode => ?free⟩
  case stays =>
    rw [hdone]
    exact reexamine_of_stays (hstays.imp id .inr)
  case free =>
    have hr : (ended.raise .done).ReexaminesTo s.advance := hdone ▸ reexamine_reexaminesTo rfl hcontext
    exact ⟨hr.empty hlatch hmode, fun p hslot =>
      ⟨hr.stale p hlatch hmode hslot, hr.starts p hlatch hmode hslot⟩⟩

/-! ### Waves (R84, R108) -/

theorem getLsbD_setPosition (img : Image) {p j : Nat} (hp : p < 128) (hj : j < 128) (b : Bool) :
    (setPosition img p b).getLsbD j = if j = p then b else img.getLsbD j := by
  have hbit : (1#128 <<< p).getLsbD j = decide (p = j) := by
    rw [← BitVec.twoPow_eq, BitVec.getLsbD_twoPow, decide_eq_true hp, Bool.true_and]
  unfold setPosition
  by_cases hjp : j = p
  · subst hjp
    cases b
    · simp only [Bool.false_eq_true, if_false, BitVec.getLsbD_and, BitVec.getLsbD_not, hbit]
      simp
    · simp only [if_true, BitVec.getLsbD_or, hbit]
      simp
  · have hpj : ¬ p = j := fun h => hjp h.symm
    cases b
    · simp only [Bool.false_eq_true, if_false, BitVec.getLsbD_and, BitVec.getLsbD_not, hbit, hjp, hpj]
      simp [hj]
    · simp only [if_true, BitVec.getLsbD_or, hbit, hjp, hpj]
      simp

/-- The position of a relay of chain `c` set, and nothing done for a relay of another chain (R84). -/
theorem getLsbD_relayPosition (img : Image) (r c : Nat) {p : Nat} (hp : p < 128) (b : Bool) :
    (if r / 128 = c then setPosition img (r % 128) b else img).getLsbD p =
      if r = 128 * c + p then b else img.getLsbD p := by
  by_cases hchain : r / 128 = c
  · have hposition : p = r % 128 ↔ r = 128 * c + p := by omega
    rw [if_pos hchain, getLsbD_setPosition _ (Nat.mod_lt r (by decide)) hp]
    exact if_congr hposition rfl rfl
  · have hother : ¬ r = 128 * c + p := by omega
    rw [if_neg hchain, if_neg hother]

/-- The positions set one by one for the relays of chain `c`. -/
theorem getLsbD_foldl_setPosition (c : Nat) (close : Bool) (rs : List Nat) (img : Image) {p : Nat} (hp : p < 128) :
    (rs.foldl (fun img r => if r / 128 = c then setPosition img (r % 128) close else img) img).getLsbD p =
      if 128 * c + p ∈ rs then close else img.getLsbD p := by
  induction rs generalizing img with
  | nil => rfl
  | cons r rs ih =>
    rw [List.foldl_cons, ih, getLsbD_relayPosition img r c hp]
    by_cases hmem : 128 * c + p ∈ rs
    · simp [hmem]
    · simp [hmem, eq_comm]

/-- The positions of the present relays that a list has on chain `c`, put into a mask. -/
theorem getLsbD_foldl_present (c : Nat) (l : Table RelayEntry) (m : Image) {p : Nat} (hp : p < 128) :
    (l.foldl (fun m e => if e.2.present && decide (e.1 / 128 = c) then setPosition m (e.1 % 128) true else m) m).getLsbD p
      = (m.getLsbD p || l.any (fun e => e.2.present && decide (e.1 = 128 * c + p))) := by
  induction l generalizing m with
  | nil => simp
  | cons e l ih =>
    have hone : (if e.2.present && decide (e.1 / 128 = c) then setPosition m (e.1 % 128) true else m).getLsbD p =
        (m.getLsbD p || e.2.present && decide (e.1 = 128 * c + p)) := by
      by_cases hpresent : e.2.present = true
      · simp only [hpresent, Bool.true_and, decide_eq_true_eq, getLsbD_relayPosition m e.1 c hp]
        by_cases he : e.1 = 128 * c + p <;> simp [he]
      · simp [hpresent]
    rw [List.foldl_cons, ih, List.any_cons, hone, Bool.or_assoc]

theorem getLsbD_presentMask {s : State} (h : Table.wf RelayEntry.absent s.topology.relayMap) (c : Nat) {p : Nat}
    (hp : p < 128) : (s.presentMask c).getLsbD p = (s.relay (128 * c + p)).present := by
  have hempty : BitVec.getLsbD (0 : Image) p = false := BitVec.getLsbD_zero
  rw [State.presentMask, getLsbD_foldl_present c _ _ hp, hempty, Bool.false_or, Bool.eq_iff_iff, List.any_eq_true]
  constructor
  · rintro ⟨⟨r, e⟩, hmem, he⟩
    obtain ⟨hpresent, heq⟩ := Bool.and_eq_true_iff.mp he
    obtain rfl := of_decide_eq_true heq
    rw [Resolving.relay_of_mem h hmem]
    exact hpresent
  · intro hpresent
    exact ⟨_, Resolving.mem_relayMap_of_present hpresent, by simp [hpresent]⟩

/-- The new image gives each wave relay its new state, each absent position 0, and keeps every other position (R84). -/
theorem getLsbD_newImage {s : State} (h : Table.wf RelayEntry.absent s.topology.relayMap) (c : Nat) (rs : List Nat)
    (close : Bool) {p : Nat} (hp : p < 128) :
    (s.newImage c rs close).getLsbD p =
      ((s.relay (128 * c + p)).present &&
        if 128 * c + p ∈ rs then close else (s.coil.images.get 0 c).getLsbD p) := by
  rw [State.newImage, BitVec.getLsbD_and, getLsbD_foldl_setPosition c close rs _ hp, getLsbD_presentMask h c hp,
    Bool.and_comm]

/-- Values put one after another at the indices of a list. -/
theorem get_foldl_put {α : Type} [DecidableEq α] (d : α) (t : Table α) (f : Nat → α) (l : List Nat) (c : Nat) :
    Table.get d (l.foldl (fun t c => t.put d c (f c)) t) c = if c ∈ l then f c else Table.get d t c := by
  induction l generalizing t with
  | nil => rfl
  | cons x l ih =>
    rw [List.foldl_cons, ih, table_get_put]
    by_cases hl : c ∈ l <;> by_cases hx : c = x <;> simp [hl, hx]

/-- Settles O42: `formWave` puts a new image and attempt 1 of a write on each chain that it touches, and nothing else. -/
theorem wavesTakeTheFrontOfTheirList : Obligations.WavesTakeTheFrontOfTheirList := by
  intro s close w hcanonical rs t
  refine ⟨rfl, ⟨_, rfl, rfl, ?_, rfl, rfl, rfl, fun x hx => ?_⟩, fun c hc => ?_⟩
  · rw [List.map_map]
    exact List.map_id _
  · obtain ⟨r, -, rfl⟩ := List.mem_map.mp hx
    exact ⟨rfl, rfl, rfl, rfl⟩
  have hexchange : t.exchange c = if c ∈ touchedChains rs then .writing 1 .shifting else s.exchange c :=
    WaveChains.get_exchangesSet s.coil.exchanges (fun _ => .writing 1 .shifting) (touchedChains rs) c
  have himage : t.coil.images.get 0 c = if c ∈ touchedChains rs then s.newImage c rs close else s.coil.images.get 0 c :=
    get_foldl_put 0 s.coil.images (fun c => s.newImage c rs close) (touchedChains rs) c
  refine ⟨fun htouched => ?_, fun hfree => ?_⟩
  · have hmem := (mem_touchedChains rs c).mpr ⟨hc, htouched⟩
    rw [hexchange, himage, if_pos hmem, if_pos hmem]
    exact ⟨rfl, fun p hp => getLsbD_newImage hcanonical.relayMap c rs close hp⟩
  · have hmem : c ∉ touchedChains rs := fun h => by
      obtain ⟨-, r, hr, hchain⟩ := (mem_touchedChains rs c).mp h
      exact hfree r hr hchain
    rw [hexchange, himage, if_neg hmem, if_neg hmem]
    exact ⟨rfl, rfl⟩

/-! ### The guard wait and the end of a wave (R105, R112, R138 to R140) -/

/-- Settles O43: a guard wait that ends sends the engine on, or suspends it with the fault recorded. -/
theorem guardWaitsEndByQackTimeoutOrPolicy : Obligations.GuardWaitsEndByQackTimeoutOrPolicy := by
  intro s t g hidle hphase ht hg
  have htimeout : exec .guardTimeout s = .next (State.fillOn (if t.kind = .safeOpen ∨ g.policy = .proceed then
      s.bypassGuard t else (s.fault .guardTimeout .guard none []).suspend .fault)) := by
    change execGuardTimeout s = _
    simp only [execGuardTimeout, hphase, ht, hg]
  refine ⟨?qack, fun hproceeds => ?proceeds, fun hkind hpolicy => ?aborts⟩
  case qack =>
    change execQackHigh s = _
    rw [execQackHigh, if_pos hphase]
    exact congrArg Host.Outcome.next (fillOn_of_bystander bystander_advance hidle)
  case proceeds =>
    rw [htimeout, if_pos hproceeds]
    exact congrArg Host.Outcome.next (fillOn_of_bystander (bystander_bypassGuard t) hidle)
  case aborts =>
    have hfault := fault_of_some ht .guardTimeout .guard none []
    have hkept : (s.fault .guardTimeout .guard none []).engine.phase = .guarding := by rw [hfault]; exact hphase
    have hsuspends := suspend_suspendsTo (s.fault .guardTimeout .guard none []) .fault
    rw [hkept] at hsuspends
    rw [htimeout, if_neg (by simp [hkind, hpolicy])]
    refine ⟨_, congrArg Host.Outcome.next (fillOn_of_bystander ((bystander_suspend .fault).comp
      (bystander_fault .guardTimeout .guard none [])) hidle), ?_⟩
    rw [hfault] at hsuspends ⊢
    exact hsuspends

/-- Settles O44: `endWave` goes by the wave's report, the kind of the transition and the abort noted. -/
theorem waveEndsSuspendLockOutOrGoOn : Obligations.WaveEndsSuspendLockOutOrGoOn := by
  intro s t w ht ended phase
  have hsafe : s.engine.transition.any (fun t => decide (t.kind = .safeOpen)) = decide (t.kind = .safeOpen) := by
    rw [ht, Option.any_some]
  refine ⟨fun hfailed hkind => ?_, fun hfailed hkind => ?_, fun hgood habort => ?_, fun hgood habort => ?_,
    fun h => ?_, fun h => ?_⟩
  · rw [endWave_eq, hsafe, if_pos hfailed, if_neg (by simpa using hkind)]
    exact suspend_suspendsTo ended .fault
  · rw [endWave_eq, hsafe, if_pos hfailed, if_pos (by simpa using hkind)]
    exact lockOut_locksOutTo ended
  · rw [endWave_eq, if_neg (by simp [hgood]), if_pos habort]
    exact suspend_suspendsTo ended .aborted
  · rw [endWave_eq, if_neg (by simp [hgood]), if_neg (by simp [habort])]
    rfl
  · simp only [phase, h, EnginePhase.faultPhase]
  · simp only [phase, h, EnginePhase.faultPhase]

/-! ### ABORT and RESUME (R127 to R134) -/

/-- Settles O51: both operations go by the phase of the engine. -/
theorem abortStopsAndResumeContinues : Obligations.AbortStopsAndResumeContinues := by
  intro s e a b hacts hmode aborted resumes
  have habort : ∀ {h : Handled}, s.abort = h → h.state.ring.address = s.ring.address → aborted h.state h.answer :=
    fun hh => row_abort.answers hacts a hh
  have hresume : ∀ {h : Handled}, s.resume = h → h.state.ring.address = s.ring.address → resumes h.state h.answer :=
    fun hh => row_resume.answers hacts a hh
  refine ⟨fun hphase => ?guarding, fun hphase => ?waves, fun hphase => ?quiet, fun hphase => ?notSuspended,
    fun t hphase ht => ?resumed⟩
  case guarding =>
    have hsuspends := suspend_suspendsTo s .aborted
    rw [hphase] at hsuspends
    refine ⟨_, hsuspends, habort (h := { answer := .accepted, state := s.suspend .aborted }) ?_
      (congrArg RingPort.address (suspend_ring s _))⟩
    rw [State.abort, unlessLocked_of_open hmode, hphase]
  case waves =>
    refine habort (h := { answer := .accepted, state := { s with engine.abortNoted := true } }) ?_ rfl
    rw [State.abort, unlessLocked_of_open hmode]
    obtain hphase | hphase := hphase <;> rw [hphase]
  case quiet =>
    refine habort (h := .refuse .nothingInFlight s) ?_ rfl
    rw [State.abort, unlessLocked_of_open hmode]
    obtain hphase | hphase := hphase <;> rw [hphase]
  case notSuspended =>
    refine hresume (h := .refuse .notSuspended s) ?_ rfl
    rw [State.resume, unlessLocked_of_open hmode]
    split
    next hsuspended _ => exact absurd hsuspended hphase
    · rfl
  case resumed =>
    refine hresume (h := { answer := .accepted, state := s.resumeTransition t }) ?_
      (congrArg RingPort.address (launch_ring (resumed s t)))
    simp only [State.resume, unlessLocked_of_open hmode, hphase, ht]

/-! ### ROLLBACK and SAFE_OPEN (R135 to R137), with a resolution in flight (R63; log 31) -/

section

variable {v : State} {t : Transition}

theorem reexamine_resolver (s : State) : s.reexamine.resolver = s.resolver := by
  unfold State.reexamine
  split_ifs
  · unfold State.takeTrigger
    split
    · split_ifs
      · rfl
      · exact beginPhases_resolver (planTaken (unlatched s) _)
    · rfl
  · rfl

theorem launch_resolver (s : State) : s.launch.resolver = s.resolver := by
  rw [launch_eq, reexamine_resolver, beginPhases_resolver]

theorem launched_of_none (hcontext : v.resolver.context = none) : v.launch.cancelResolution = v.launch :=
  cancelResolution_of_none ((congrArg Resolver.context (launch_resolver v)).trans hcontext)

/-- A transition with anything to do starts, and the resolution in flight is cancelled. -/
theorem launched_of_work {ctx : Resolution} (hctx : v.resolver.context = some ctx) (ht : v.engine.transition = some t)
    (hwork : t.guarded ≠ 0 ∨ v.engine.pendingOpen ≠ [] ∨ v.engine.pendingClose ≠ []) :
    v.launch.cancelResolution = State.raise
      { v.launch with resolver := { context := none, result := cancelledRecord ctx } } .resolveFail := by
  have hbusy : v.beginPhases.engine.phase ≠ .idle := beginPhases_busy ht hwork
  have hstarts : (cancelled v ctx).beginPhases = withResolver v.beginPhases _ := beginPhases_withResolver v _
  rw [cancelResolution_launch hctx, launch_of_busy hbusy, launch_of_busy (by rw [hstarts]; exact hbusy), hstarts]
  rfl

/-- A transition with nothing to do completes, and the latched trigger is re-examined once the resolution is cancelled. -/
theorem launched_of_nothing {ctx : Resolution} (hctx : v.resolver.context = some ctx) (ht : v.engine.transition = some t)
    (hkind : t.kind ≠ .stepped) (hguarded : t.guarded = 0) (hopen : v.engine.pendingOpen = [])
    (hclose : v.engine.pendingClose = []) :
    ∃ u, v.launch.cancelResolution = u.raise .resolveFail ∧
      ((ended (cancelled v ctx) t).raise .done).ReexaminesTo u := by
  refine ⟨_, cancelResolution_launch hctx, ?_⟩
  have hdone : (cancelled v ctx).launch = ((ended (cancelled v ctx) t).raise .done).reexamine := by
    rw [launch_of_unguarded (s := cancelled v ctx) ht hguarded,
      advance_of_done (s := cancelled v ctx) ht hopen hclose (if_neg hkind)]
  rw [hdone]
  exact reexamine_reexaminesTo rfl rfl

theorem launched_ring (v : State) : v.launch.cancelResolution.ring = v.ring := by
  rw [cancelResolution_ring, launch_ring]

end

/-- Settles O52: a ROLLBACK is a launch towards the base owner map with the resolution cancelled. -/
theorem rollbackReturnsToTheBase : Obligations.RollbackReturnsToTheBase := by
  intro s e a b hcanonical hacts hmode answer
  have hrow : ∀ {h : Handled}, s.rollback = h → h.state.ring.address = s.ring.address → answer h.state h.answer :=
    fun hh => row_rollback.answers hacts a hh
  refine ⟨fun hphase => ?notSuspended, fun t hphase ht => ⟨fun hkind => ?otherKind, fun hkind => ?taken⟩⟩
  case notSuspended =>
    refine hrow (h := .refuse .notSuspended s) ?_ rfl
    rw [State.rollback, unlessLocked_of_open hmode]
    split
    next hsuspended _ => exact absurd hsuspended hphase
    · rfl
  case otherKind =>
    refine hrow (h := .refuse .badArgument s) ?_ rfl
    simp only [State.rollback, unlessLocked_of_open hmode, hphase, ht, if_neg hkind]
  case taken =>
    refine ⟨s.rollbackOpens, s.rollbackCloses, Pending.mem_rollbackOpens hcanonical, Pending.mem_rollbackCloses hcanonical,
      Pending.ascending_relays hcanonical.actual _, Pending.ascending_relays hcanonical.baseMap _, ?_⟩
    intro started
    have hstarts : ∀ {u}, started.launch.cancelResolution = u → answer u .accepted := by
      rintro _ rfl
      refine hrow (h := { answer := .accepted, state := s.startRollback t }) ?_ (congrArg RingPort.address (launched_ring started))
      simp only [State.rollback, unlessLocked_of_open hmode, hphase, ht, if_pos hkind]
    refine ⟨fun hcontext => hstarts (launched_of_none hcontext), fun ctx hctx =>
      ⟨fun hwork => hstarts (launched_of_work hctx rfl hwork), fun hguarded hopen hclose => ?_⟩⟩
    obtain ⟨u, hu, hr⟩ := launched_of_nothing (v := started) hctx rfl (by simp) hguarded hopen hclose
    exact ⟨u, hstarts hu, hr⟩

/-- Settles O53: a SAFE_OPEN is a launch that opens every relay not OPEN, with the resolution cancelled. -/
theorem safeOpenOpensEverything : Obligations.SafeOpenOpensEverything := by
  intro s e a b hcanonical hacts answer
  have hrow : ∀ {h : Handled}, s.safeOpen = h → h.state.ring.address = s.ring.address → answer h.state h.answer :=
    fun hh => row_safeOpen.answers hacts a hh
  refine ⟨fun hmode => ?configure, fun hmode hphase => ?busy, fun hmode hphase => ?taken⟩
  case configure => exact hrow (h := .refuse .wrongMode s) (by simp only [State.safeOpen, hmode]) rfl
  case busy =>
    refine hrow (h := .busy .engine s) ?_ rfl
    obtain hphase | hphase | hphase := hphase <;> simp only [State.safeOpen, hmode, hphase]
  case taken =>
    refine ⟨s.safeOpens, s.allGuarded, Pending.mem_safeOpens hcanonical, Pending.ascending_relays hcanonical.actual _,
      fun k hk => ?_, ?_⟩
    · rw [State.allGuarded, GuardSet.getLsbD_foldl_range _ 24 k hk, decide_eq_true hk, Bool.true_and,
        GuardSet.isGuarded_iff s hk]
    intro started
    have hstarts : ∀ {u}, started.launch.cancelResolution = u → answer u .accepted := by
      rintro _ rfl
      refine hrow (h := { answer := .accepted, state := s.startSafeOpen }) ?_ (congrArg RingPort.address (launched_ring started))
      obtain hphase | hphase := hphase <;> simp only [State.safeOpen, hmode, hphase]
    refine ⟨fun hcontext => hstarts (launched_of_none hcontext), fun ctx hctx =>
      ⟨fun hwork => hstarts (launched_of_work hctx rfl (hwork.imp id .inl)), fun hguarded hopen => ?_⟩⟩
    obtain ⟨u, hu, hr⟩ := launched_of_nothing (v := started) hctx rfl (by simp) hguarded hopen rfl
    exact ⟨u, hstarts hu, hr⟩

end Sys2Proof.EnginePhases
end

section
/-! Wear: a confirmation's increment, the thresholds it crosses and the notices it hands on (R76 to R81, R110, R163 to
R165). -/

namespace Sys2Proof.Wearing

open Sys2Proof.Machine Sys2Proof.Laws

/-! ### Notices handed on (R165) -/

/-- `u` is what handing the notices of `l` on one by one leaves of `s`: each is appended with WEAR while the list holds
fewer than 16, and is lost with NOTICE_FULL otherwise. -/
structure Hands (s u : State) (l : List Notice) : Prop where
  notices : s.wear.notices.length ≤ 16 → u.wear.notices = (s.wear.notices ++ l).take 16
  wear : s.wear.notices.length ≤ 16 →
    (u.isRaised .wear = true ↔ s.isRaised .wear = true ∨ l ≠ [] ∧ s.wear.notices.length < 16)
  full : s.wear.notices.length ≤ 16 →
    (u.isRaised .noticeFull = true ↔ s.isRaised .noticeFull = true ∨ 16 < s.wear.notices.length + l.length)
  others : ∀ c, c ≠ .wear → c ≠ .noticeFull → u.isRaised c = s.isRaised c

theorem Hands.refl (s : State) : Hands s s [] where
  notices h := by rw [List.append_nil, List.take_of_length_le h]
  wear _ := by simp
  full h := by
    have hfew : ¬ 16 < s.wear.notices.length + 0 := by omega
    exact (or_iff_left hfew).symm
  others _ _ _ := rfl

theorem Hands.trans {s u v : State} {l m : List Notice} (hl : Hands s u l) (hm : Hands u v m) : Hands s v (l ++ m) := by
  have hlength : s.wear.notices.length ≤ 16 → u.wear.notices.length = min 16 (s.wear.notices.length + l.length) :=
    fun h => by rw [hl.notices h, List.length_take, List.length_append]
  have hle : s.wear.notices.length ≤ 16 → u.wear.notices.length ≤ 16 := fun h => by have := hlength h; omega
  refine ⟨fun h => ?_, fun h => ?_, fun h => ?_, fun c hc hc' => (hm.others c hc hc').trans (hl.others c hc hc')⟩
  · rw [hm.notices (hle h), hl.notices h, ← List.append_assoc, List.take_append (l₁ := List.take 16 _), List.take_take,
      List.take_append (l₁ := s.wear.notices ++ l), List.length_take, Nat.min_self]
    congr 2
    omega
  · have hu := hlength h
    rw [hm.wear (hle h), hl.wear h, ← List.length_pos_iff, ← List.length_pos_iff, ← List.length_pos_iff,
      List.length_append]
    constructor
    · rintro ((hs | ⟨hpos, hlt⟩) | ⟨hpos, hlt⟩)
      · exact .inl hs
      · exact .inr ⟨by omega, hlt⟩
      · exact .inr ⟨by omega, by omega⟩
    · rintro (hs | ⟨hpos, hlt⟩)
      · exact .inl (.inl hs)
      · by_cases hfirst : 0 < l.length
        · exact .inl (.inr ⟨hfirst, hlt⟩)
        · exact .inr ⟨by omega, by omega⟩
  · have hu := hlength h
    rw [hm.full (hle h), hl.full h, List.length_append, or_assoc]
    refine or_congr_right ?_
    omega

theorem hands_handNotice (s : State) (n : Notice) : Hands s (s.handNotice n) [n] := by
  unfold State.handNotice
  split
  next hlt =>
    refine ⟨fun _ => ?_, fun _ => ?_, fun _ => ?_, fun c hc _ => ?_⟩
    · exact (List.take_of_length_le (by simpa using hlt)).symm
    · rw [isRaised_raise]
      simp [hlt]
    · have hfew : ¬ 16 < s.wear.notices.length + 1 := by omega
      rw [isRaised_raise]
      exact (Bool.or_false _ ▸ (or_iff_left hfew).symm)
    · rw [isRaised_raise, decide_eq_false hc, Bool.or_false]
      rfl
  next hge =>
    refine ⟨fun hle => ?_, fun _ => ?_, fun _ => ?_, fun c _ hc => ?_⟩
    · rw [List.take_append_of_le_length (by omega), List.take_of_length_le hle]
      rfl
    · rw [isRaised_raise]
      simp [hge]
    · have hmany : 16 < s.wear.notices.length + 1 := by omega
      rw [isRaised_raise]
      exact iff_of_true (Bool.or_true _) (.inr hmany)
    · rw [isRaised_raise, decide_eq_false hc, Bool.or_false]

/-- A notice handed on where a condition holds. -/
theorem hands_ite (s : State) (p : Prop) [Decidable p] (n : Notice) :
    Hands s (if p then s.handNotice n else s) (if p then [n] else []) := by
  split
  · exact hands_handNotice s n
  · exact .refl s

/-- A wear record is no notice. -/
theorem hands_setWear (s : State) (r : Nat) (w : WearRecord) : Hands s (s.setWear r w) [] :=
  ⟨(Hands.refl s).notices, (Hands.refl s).wear, (Hands.refl s).full, (Hands.refl s).others⟩

/-! ### The increment of one confirmation (R163) -/

section

variable {s : State} (r weight : Nat)

/-- Whether the increment of relay `r` crosses a threshold of its class (R80). -/
abbrev crossesAt (s : State) (r weight : Nat) (threshold : ClassEntry → Nat) : Prop :=
  crosses (threshold (s.classOf r)) (s.wearOf r).count (addedWear (s.wearOf r).count weight) = true

/-- The notice of a crossing (R80). -/
def crossing (s : State) (r weight : Nat) (kind : NoticeKind) : Notice :=
  { relay := r, kind := kind, count := addedWear (s.wearOf r).count weight }

/-- The increment with what a warn crossing does. -/
def warned (s : State) (r weight : Nat) : State :=
  let counted := s.setWear r { s.wearOf r with count := addedWear (s.wearOf r).count weight }
  if crossesAt s r weight warnThreshold then counted.handNotice (crossing s r weight .warn) else counted

theorem addWear_eq : s.addWear r weight =
    if crossesAt s r weight retireThreshold then
      ((warned s r weight).setWear r { count := addedWear (s.wearOf r).count weight, health := .retired }).handNotice
        (crossing s r weight .retire)
    else warned s r weight := rfl

/-- The notices that an increment of relay `r` hands on: WARN goes before RETIRE (R80, R81). -/
def handedBy (s : State) (r weight : Nat) : List Notice :=
  (if crossesAt s r weight warnThreshold then [crossing s r weight .warn] else []) ++
    (if crossesAt s r weight retireThreshold then [crossing s r weight .retire] else [])

theorem hands_addWear : Hands s (s.addWear r weight) (handedBy s r weight) := by
  have hwarned : Hands s (warned s r weight) (if crossesAt s r weight warnThreshold then [crossing s r weight .warn] else []) :=
    (hands_setWear s r _).trans (hands_ite _ _ _)
  rw [addWear_eq]
  refine hwarned.trans ?_
  split
  · exact (hands_setWear _ r _).trans (hands_handNotice _ _)
  · exact .refl _

/-- The wear records after an increment: the count of the relay, and RETIRED at the retire threshold. -/
theorem addWear_wearOf (x : Nat) : (s.addWear r weight).wearOf x =
    if x = r then
      { count := addedWear (s.wearOf r).count weight,
        health := if crosses (retireThreshold (s.classOf r)) (s.wearOf r).count (addedWear (s.wearOf r).count weight) then
          .retired else (s.wearOf r).health }
    else s.wearOf x := by
  unfold State.addWear
  dsimp only
  split <;> split <;> simp only [handNotice_wearOf, wearOf_setWear] <;> by_cases hx : x = r <;> simp_all

end

theorem crossesAt_iff (s : State) (r weight : Nat) (threshold : ClassEntry → Nat) :
    crossesAt s r weight threshold ↔ (s.wearOf r).count.toNat < threshold (s.classOf r) ∧
      threshold (s.classOf r) ≤ min ((s.wearOf r).count.toNat + weight) 4294967295 := by
  rw [crossesAt, crosses, decide_eq_true_iff, addedWear_toNat]

/-- A threshold of a class is at most 2.55 rated lives (R79). -/
theorem threshold_le (c : ClassEntry) (share : Byte) : ratedLife c * share.toNat / 100 ≤ 167114250 := by
  have hlife : ratedLife c ≤ 65535000 := by
    have := c.ratedLife.isLt
    simp only [ratedLife]
    omega
  have hshare : share.toNat ≤ 255 := by
    have := share.isLt
    omega
  calc ratedLife c * share.toNat / 100
      ≤ 65535000 * 255 / 100 := Nat.div_le_div_right (Nat.mul_le_mul hlife hshare)
    _ = 167114250 := rfl

theorem warnThreshold_pos {c : ClassEntry} (hlife : c.ratedLife ≠ 0) (hwarn : c.warn ≠ 0) : 10 ≤ warnThreshold c := by
  have hlife : 1000 ≤ ratedLife c := by
    have : c.ratedLife.toNat ≠ 0 := fun h => hlife (BitVec.eq_of_toNat_eq h)
    simp only [ratedLife]
    omega
  have hwarn : 1 ≤ c.warn.toNat := by
    have : c.warn.toNat ≠ 0 := fun h => hwarn (BitVec.eq_of_toNat_eq h)
    omega
  calc 10 = 1000 * 1 / 100 := rfl
    _ ≤ ratedLife c * c.warn.toNat / 100 := Nat.div_le_div_right (Nat.mul_le_mul hlife hwarn)

/-- Settles O40: a confirmation is its relay's new state and one increment of its wear. -/
theorem confirmationsCountWearAndNotify : Obligations.ConfirmationsCountWearAndNotify := by
  intro s close r life warn retire weight before after retires handed t
  have hweight : wearWeight s.isHot close s.control.params.hotWeight = weight := wearWeight_eq s close
  have hconfirm : t = State.addWear
      { s with
        engine.actual := s.engine.actual.put .opened r (if close then .closed else .opened),
        engine.pendingOpen := s.engine.pendingOpen.filter (fun x => x ≠ r),
        engine.pendingClose := s.engine.pendingClose.filter (fun x => x ≠ r) } r weight := by
    rw [← hweight]
    rfl
  have hcrosses : ∀ threshold, crossesAt s r weight threshold ↔
      before < threshold (s.classOf r) ∧ threshold (s.classOf r) ≤ after := crossesAt_iff s r weight
  have hhanded : handedBy s r weight = handed :=
    congrArg₂ (· ++ ·) (if_congr (hcrosses warnThreshold) rfl rfl) (if_congr (hcrosses retireThreshold) rfl rfl)
  have hhands : Hands s t handed := by
    have h := hands_addWear (s := { s with
        engine.actual := s.engine.actual.put .opened r (if close then .closed else .opened),
        engine.pendingOpen := s.engine.pendingOpen.filter (fun x => x ≠ r),
        engine.pendingClose := s.engine.pendingClose.filter (fun x => x ≠ r) }) r weight
    rw [hconfirm, ← hhanded]
    exact ⟨h.notices, h.wear, h.full, h.others⟩
  have hwear : ∀ x, t.wearOf x = if x = r then
      { count := addedWear (s.wearOf r).count weight,
        health := if crossesAt s r weight retireThreshold then .retired else (s.wearOf r).health }
      else s.wearOf x := by
    intro x
    rw [hconfirm]
    exact addWear_wearOf r weight x
  refine ⟨⟨rfl, rfl, threshold_le _ _, threshold_le _ _, warnThreshold_pos⟩, ?_, fun x => ?_, ?_, ?_, fun x hx => ?_,
    fun hlength => ⟨hhands.notices hlength, hhands.wear hlength, hhands.full hlength⟩, hhands.others⟩
  · rw [show t = s.confirm close r from rfl, confirm_frame]
  · rw [show t = s.confirm close r from rfl, confirm_frame]
    exact table_get_put _ _ _ _ _
  · rw [hwear, if_pos rfl]
    exact addedWear_toNat _ _
  · rw [hwear, if_pos rfl]
    exact if_congr (hcrosses retireThreshold) rfl rfl
  · rw [hwear, if_neg hx]

/-! ### The health changes of a CONTACT fault (R126, R164) -/

/-- The notice of a relay that a CONTACT fault makes RETIRED, with its present count (R164). -/
def retirement (s : State) (r : Nat) : Notice := { relay := r, kind := .retire, count := (s.wearOf r).count }

theorem hands_degrade (s : State) (r : Nat) :
    Hands s (s.degrade r) (if (s.wearOf r).health = .suspect then [retirement s r] else []) := by
  unfold State.degrade
  cases hhealth : (s.wearOf r).health with
  | good => exact hands_setWear s r _
  | suspect => exact (hands_setWear s r _).trans (hands_handNotice _ _)
  | retired => exact .refl s

/-- The health changes of several relays, each named once. -/
theorem foldl_degrade_wearOf {rs : List Nat} (hrs : rs.Nodup) (s : State) (x : Nat) :
    (rs.foldl (fun t r => t.degrade r) s).wearOf x =
      if x ∈ rs then { s.wearOf x with health := if (s.wearOf x).health = .good then .suspect else .retired }
      else s.wearOf x := by
  induction rs generalizing s with
  | nil => rfl
  | cons r rs ih =>
    obtain ⟨hr, hrs⟩ := List.nodup_cons.mp hrs
    rw [List.foldl_cons, ih hrs, degrade_wearOf]
    by_cases hx : x = r
    · subst hx
      simp [hr]
    · by_cases hmem : x ∈ rs <;> simp [hx, hmem]

theorem hands_foldl_degrade {rs : List Nat} (hrs : rs.Nodup) (s : State) :
    Hands s (rs.foldl (fun t r => t.degrade r) s)
      ((rs.filter (fun r => decide ((s.wearOf r).health = .suspect))).map (retirement s)) := by
  induction rs generalizing s with
  | nil => exact .refl s
  | cons r rs ih =>
    obtain ⟨hr, hrs⟩ := List.nodup_cons.mp hrs
    have hkept : ∀ x ∈ rs, (s.degrade r).wearOf x = s.wearOf x := fun x hx => by
      rw [degrade_wearOf, if_neg]
      rintro rfl
      exact hr hx
    have hrest : (rs.filter (fun x => decide (((s.degrade r).wearOf x).health = .suspect))).map (retirement (s.degrade r)) =
        (rs.filter (fun x => decide ((s.wearOf x).health = .suspect))).map (retirement s) := by
      rw [List.filter_congr fun x hx => by rw [hkept x hx]]
      exact List.map_congr_left fun x hx => by rw [retirement, retirement, hkept x (List.mem_of_mem_filter hx)]
    have h := (hands_degrade s r).trans (ih hrs (s.degrade r))
    rw [hrest] at h
    rw [List.foldl_cons, List.filter_cons]
    by_cases hsuspect : (s.wearOf r).health = .suspect
    · simpa [hsuspect] using h
    · simpa [hsuspect] using h

theorem foldl_degrade_frame (rs : List Nat) (s : State) :
    rs.foldl (fun t r => t.degrade r) s =
      { s with
        wear := (rs.foldl (fun t r => t.degrade r) s).wear, alerts := (rs.foldl (fun t r => t.degrade r) s).alerts } := by
  induction rs generalizing s with
  | nil => rfl
  | cons r rs ih =>
    rw [List.foldl_cons, ih, degrade_frame]

theorem foldl_degrade_engine (rs : List Nat) (s : State) : (rs.foldl (fun t r => t.degrade r) s).engine = s.engine := by
  rw [foldl_degrade_frame]

end Sys2Proof.Wearing
end

section
/-! The coil chains: shifts, echoes, attempts that fail, the timed wait and the sense period (R84 to R92, R109 to R112,
R123 to R126). -/

namespace Sys2Proof.CoilChains

open Sys2Proof.Machine Sys2Proof.Laws Sys2Proof.Kept Sys2Proof.Traffic Sys2Proof.Triggers

/-! ### Lists in ascending order -/

theorem nodup_of_ascending {l : List Nat} (h : Ascending l) : l.Nodup := h.imp Nat.ne_of_lt

/-- The lowest relay of an ascending list is its first. -/
theorem min?_of_ascending {l : List Nat} (h : Ascending l) : l.min? = l.head? := by
  cases l with
  | nil => rfl
  | cons r l =>
    have hfold : ∀ l : List Nat, (∀ x ∈ l, r < x) → l.foldl min r = r := by
      intro l
      induction l with
      | nil => exact fun _ => rfl
      | cons x l ih =>
        intro hl
        have hx : r < x := hl x List.mem_cons_self
        rw [List.foldl_cons, Nat.min_eq_left (Nat.le_of_lt hx)]
        exact ih fun y hy => hl y (List.mem_cons_of_mem x hy)
    exact congrArg some (hfold l (List.pairwise_cons.mp h).1)

theorem ascending_having {w : Wave} (h : Ascending (w.relays.map WaveRelay.relay)) (c : Option Nat) (st : RelayStatus) :
    Ascending (w.having c st) :=
  h.sublist (List.filter_sublist.map _)

/-! ### The rows of the chains -/

section

variable {s : State} {c : Fin 8} {n : Nat}

theorem exec_shiftComplete_writing (hidle : s.ring.reading = none) (hx : s.exchange c = .writing n .shifting) :
    exec (.shiftComplete c) s = .next (s.setExchange c (.writing n .echoWait)) := by
  change execShiftComplete c s = _
  simp only [execShiftComplete, hx]
  exact congrArg Host.Outcome.next (fillOn_idle _ hidle)

theorem exec_shiftComplete_sensing (hidle : s.ring.reading = none) (hx : s.exchange c = .sensing n .shifting) :
    exec (.shiftComplete c) s = .next (s.setExchange c (.sensing n .echoWait)) := by
  change execShiftComplete c s = _
  simp only [execShiftComplete, hx]
  exact congrArg Host.Outcome.next (fillOn_idle _ hidle)

theorem exec_writeEcho_matched (hx : s.exchange c = .writing n .echoWait) {echo : Image}
    (hecho : echo = s.coil.images.get 0 c) : exec (.writeEcho c echo) s = .next (s.chainLatches c).fillOn := by
  change execWriteEcho c echo s = _
  simp only [execWriteEcho, hx, if_pos hecho]

theorem exec_writeEcho_mismatched (hx : s.exchange c = .writing n .echoWait) {echo : Image}
    (hecho : echo ≠ s.coil.images.get 0 c) : exec (.writeEcho c echo) s = .next (s.writeAttemptFails c n).fillOn := by
  change execWriteEcho c echo s = _
  simp only [execWriteEcho, hx, if_neg hecho]

theorem exec_senseEcho_matched (hx : s.exchange c = .sensing n .echoWait) {echo : Image}
    (hecho : echo = s.coil.images.get 0 c) (made : Image) :
    exec (.senseEcho c echo made) s = .next (s.senseCompletes c made).fillOn := by
  change execSenseEcho c echo made s = _
  simp only [execSenseEcho, hx, if_pos hecho]

theorem exec_senseEcho_mismatched (hx : s.exchange c = .sensing n .echoWait) {echo : Image}
    (hecho : echo ≠ s.coil.images.get 0 c) (made : Image) :
    exec (.senseEcho c echo made) s = .next (s.senseAttemptFails c n).fillOn := by
  change execSenseEcho c echo made s = _
  simp only [execSenseEcho, hx, if_neg hecho]

theorem exec_noEcho_writing (hx : s.exchange c = .writing n .echoWait) :
    exec (.noEcho c) s = .next (s.writeAttemptFails c n).fillOn := by
  change execNoEcho c s = _
  simp only [execNoEcho, hx]

theorem exec_noEcho_sensing (hx : s.exchange c = .sensing n .echoWait) :
    exec (.noEcho c) s = .next (s.senseAttemptFails c n).fillOn := by
  change execNoEcho c s = _
  simp only [execNoEcho, hx]

theorem exec_timedWaitEnd {w : Wave} (hw : s.coil.wave = some w) (hstage : w.stage = .timedWait) :
    exec .timedWaitEnd s = .next (s.endTimedWait w).fillOn := by
  change execTimedWaitEnd s = _
  simp only [execTimedWaitEnd, hw, hstage]

theorem exec_senseDeadline (s : State) : exec .senseDeadline s = .next (s.senseProgress true).fillOn := rfl

theorem senseAttemptFails_of_lt (s : State) (c : Fin 8) (hn : n < 3) :
    s.senseAttemptFails c n = s.setExchange c (.sensing (n + 1) .shifting) := if_pos hn

theorem senseAttemptFails_of_three_le {w : Wave} (hw : s.coil.wave = some w) (c : Fin 8) (hn : 3 ≤ n) :
    s.senseAttemptFails c n = (s.chainFails w c (w.withStatus c .sensing)).senseProgress false := by
  simp only [State.senseAttemptFails, Nat.not_lt.mpr hn, if_false, hw]

end

/-! ### The other chains of a wave -/

theorem inFlight_iff (x : Exchange) : x.inFlight = true ↔ ∃ n st, x = .sensing n st := by
  cases x <;> simp [Exchange.inFlight]

/-- With one chain moved to a state without a property, that some chain has it says so of another chain. -/
theorem any_of_moved {s u : State} {c : Nat} (p : Exchange → Bool) (hhere : p (u.exchange c) = false)
    (hothers : ∀ d, d ≠ c → u.exchange d = s.exchange d) (l : List Nat) :
    l.any (fun d => p (u.exchange d)) = true ↔ ∃ d ∈ l, d ≠ c ∧ p (s.exchange d) = true := by
  rw [List.any_eq_true]
  refine exists_congr fun d => and_congr_right fun _ => ⟨fun hd => ?_, fun ⟨hne, hd⟩ => by rwa [hothers d hne]⟩
  have hne : d ≠ c := fun h => by rw [h, hhere] at hd; cases hd
  exact ⟨hne, by rwa [hothers d hne] at hd⟩

/-! ### A wave goes on after a write (R88, R109) -/

section

variable {u : State} {w : Wave} (hw : u.coil.wave = some w)
include hw

theorem writeProgress_of_writing (hwriting : w.chains.any (fun d => (u.exchange d).isWriting) = true) :
    u.writeProgress = u := by
  simp only [State.writeProgress, hw, if_pos hwriting]

theorem writeProgress_of_latched (hwriting : ¬ w.chains.any (fun d => (u.exchange d).isWriting) = true)
    (hlatched : w.chains.any (fun d => decide (u.exchange d = .latched)) = true) :
    u.writeProgress =
      if w.time = 0 then u.endTimedWait { w with stage := .timedWait }
      else { u with coil.wave := some { w with stage := .timedWait } } := by
  simp only [State.writeProgress, hw, if_neg hwriting, if_pos hlatched]

theorem writeProgress_of_failed (hwriting : ¬ w.chains.any (fun d => (u.exchange d).isWriting) = true)
    (hlatched : ¬ w.chains.any (fun d => decide (u.exchange d = .latched)) = true) : u.writeProgress = u.endWave w := by
  simp only [State.writeProgress, hw, if_neg hwriting, if_neg hlatched]

omit hw in
/-- Where the timed wait begins, a wave time of 0 ends it as TIMED_WAIT_END would (R109; log 14). -/
theorem exec_timedWaitEnd_of_waiting :
    exec .timedWaitEnd { u with coil.wave := some { w with stage := .timedWait } } =
      .next (u.endTimedWait { w with stage := .timedWait }).fillOn :=
  exec_timedWaitEnd rfl rfl

theorem writeProgress_waits (hidle : u.ring.reading = none)
    (hwriting : ¬ w.chains.any (fun d => (u.exchange d).isWriting) = true)
    (hlatched : w.chains.any (fun d => decide (u.exchange d = .latched)) = true) :
    (0 < w.time → u.writeProgress.fillOn = { u with coil.wave := some { w with stage := .timedWait } }) ∧
      (w.time = 0 → .next u.writeProgress.fillOn =
        exec .timedWaitEnd { u with coil.wave := some { w with stage := .timedWait } }) := by
  rw [writeProgress_of_latched hw hwriting hlatched]
  refine ⟨fun htime => ?_, fun htime => ?_⟩
  · rw [if_neg (by omega)]
    exact fillOn_idle _ hidle
  · rw [if_pos htime, exec_timedWaitEnd_of_waiting]

end

/-- Which chain has moved does not depend on the wave record. -/
theorem moves_withWave {s u : State} {c : Nat} {x : Exchange} (h : s.Moves u c x) (o : Option Wave) :
    State.Moves { s with coil.wave := o } { u with coil.wave := o } c x where
  rest := congrArg (fun v : State => { v with coil.wave := o }) h.rest
  here := h.here
  others := h.others

/-! ### Echoes of writes (R85, R86, R88, R109) -/

theorem chainLatched_wave (s : State) (w : Wave) (c : Fin 8) :
    (chainLatched s w c).coil.wave = some { w with relays := w.given (w.having (some c) .writing) .latched } := by
  rw [← withStatus_eq_having]
  rfl

theorem chainLatched_moves (s : State) (w : Wave) (c : Fin 8) :
    State.Moves { s with coil.wave := some { w with relays := w.given (w.having (some c) .writing) .latched } }
      (chainLatched s w c) c .latched := by
  rw [← withStatus_eq_having]
  exact setExchange_moves _ _ _

/-- Settles O45: an attempt goes on by its next stage or attempt, and a chain that latches lets the wave go on. -/
theorem echoesLatchOrRetry : Obligations.EchoesLatchOrRetry := by
  intro s c n echo made hidle
  have hmoves : ∀ x, ∃ u, (s.setExchange c x).fillOn = u ∧ s.Moves u c x := fun x =>
    ⟨_, fillOn_idle (s.setExchange c x) hidle, setExchange_moves s c x⟩
  refine ⟨?shift, fun hx hn => ⟨?lost, fun hecho => ?mismatched⟩, fun hx hn => ⟨?senseLost, fun hecho => ?senseMismatched⟩,
    fun w hw hx hecho => ?latches⟩
  case shift =>
    simp only [List.forall_mem_cons, List.not_mem_nil, IsEmpty.forall_iff, implies_true, and_true]
    exact ⟨fun hx => ⟨_, exec_shiftComplete_writing hidle hx, setExchange_moves s c _⟩,
      fun hx => ⟨_, exec_shiftComplete_sensing hidle hx, setExchange_moves s c _⟩⟩
  case lost =>
    rw [exec_noEcho_writing hx, writeAttemptFails_of_lt s hn]
    obtain ⟨u, hu, hm⟩ := hmoves (.writing (n + 1) .shifting)
    exact ⟨u, congrArg _ hu, hm⟩
  case mismatched =>
    rw [exec_writeEcho_mismatched hx hecho, writeAttemptFails_of_lt s hn]
    obtain ⟨u, hu, hm⟩ := hmoves (.writing (n + 1) .shifting)
    exact ⟨u, congrArg _ hu, hm⟩
  case senseLost =>
    rw [exec_noEcho_sensing hx, senseAttemptFails_of_lt s c hn]
    obtain ⟨u, hu, hm⟩ := hmoves (.sensing (n + 1) .shifting)
    exact ⟨u, congrArg _ hu, hm⟩
  case senseMismatched =>
    rw [exec_senseEcho_mismatched hx hecho, senseAttemptFails_of_lt s c hn]
    obtain ⟨u, hu, hm⟩ := hmoves (.sensing (n + 1) .shifting)
    exact ⟨u, congrArg _ hu, hm⟩
  case latches =>
    intro latched
    have hexec : exec (.writeEcho c echo) s = .next (chainLatched s w c).writeProgress.fillOn := by
      rw [exec_writeEcho_matched hx hecho, chainLatches_eq hw]
    have hwave := chainLatched_wave s w c
    have hm := chainLatched_moves s w c
    have hchains : Wave.chains { w with relays := latched } = w.chains := chains_eq _ _ (given_relays w _ _)
    have hwriting : (Wave.chains { w with relays := latched }).any (fun d => ((chainLatched s w c).exchange d).isWriting)
        = true ↔ ∃ d ∈ w.chains, d ≠ c ∧ ∃ m st, s.exchange d = .writing m st := by
      rw [hchains, any_of_moved Exchange.isWriting (by rw [hm.here]; rfl) hm.others]
      simp only [WaveChains.isWriting_iff]
      rfl
    rw [hexec]
    refine ⟨fun hmore => ⟨_, ?_, hm⟩, fun hlast hc => ?_⟩
    · rw [writeProgress_of_writing hwave (hwriting.mpr hmore)]
      exact congrArg _ (fillOn_idle _ hidle)
    · have hnone := hwriting.not.mpr fun ⟨d, hd, hne, m, st, hd'⟩ => hlast d hd hne m st hd'
      have hsome : (Wave.chains { w with relays := latched }).any
          (fun d => decide ((chainLatched s w c).exchange d = .latched)) = true :=
        List.any_eq_true.mpr ⟨c, hchains ▸ hc, decide_eq_true hm.here⟩
      obtain ⟨hwaits, hends⟩ := writeProgress_waits hwave hidle hnone hsome
      exact ⟨{ chainLatched s w c with coil.wave := some { w with relays := latched, stage := .timedWait } },
        moves_withWave hm _, fun htime => congrArg _ (hwaits htime), hends⟩

end Sys2Proof.CoilChains
end

section
/-! Exchanges that fail, and the sense period (R87 to R92, R110, R111, R123 to R126, R164). -/

namespace Sys2Proof.SensePeriods

open Sys2Proof.Machine Sys2Proof.Laws Sys2Proof.Kept Sys2Proof.Traffic Sys2Proof.Triggers Sys2Proof.CoilChains

/-! ### How a sense period goes on (R90, R91) -/

theorem senseProgress_of_none {u : State} {w : Wave} {d : Nat} {reached : Bool} (hw : u.coil.wave = some w)
    (hstage : w.stage = .sensing d reached) (hnone : w.sensing = []) (now : Bool) : u.senseProgress now = u.endWave w := by
  simp only [State.senseProgress, hw, hstage, hnone, if_true]

theorem sensing_eq_nil_iff (w : Wave) : w.sensing = [] ↔ ∀ x ∈ w.relays, x.status ≠ .sensing := by
  simp [Wave.sensing, List.filter_eq_nil_iff]

/-- `u` with the wave `w` in its sense period, under the deadline `m`. -/
def sensingOn (u : State) (w : Wave) (m : Nat) (reached : Bool) : State :=
  { u with coil.wave := some { w with stage := .sensing m reached } }

section

variable {u : State} {w : Wave} {d m : Nat} {reached : Bool}

/-- A sense period whose deadline has been reached goes on while an exchange is in flight. -/
theorem senseProgress_of_passed (hw : u.coil.wave = some w) (hstage : w.stage = .sensing d reached)
    (hm : LargestTimeout w.relays m) {now : Bool} (hpassed : (reached || now || decide (m = 0)) = true) :
    u.senseProgress now =
      if w.chains.any (fun k => (u.exchange k).inFlight) then sensingOn u w m true
      else u.contactFails { w with stage := .sensing m true } := by
  rw [senseProgress_eq u w d m reached now hw hstage hm, hpassed, Bool.true_and]
  cases w.chains.any (fun k => (u.exchange k).inFlight) <;> rfl

theorem senseProgress_of_early (hw : u.coil.wave = some w) (hstage : w.stage = .sensing d reached)
    (hm : LargestTimeout w.relays m) {now : Bool} (hpassed : (reached || now || decide (m = 0)) = false) :
    u.senseProgress now = sensingOn u w m false := by
  rw [senseProgress_eq u w d m reached now hw hstage hm, hpassed]
  rfl

/-- What a sense period does once an exchange has ended with relays still SENSING: it goes on before its deadline and while
another exchange is in flight, and otherwise ends as SENSE_DEADLINE ends it. -/
theorem senseProgress_goesOn (hw : u.coil.wave = some w) (hstage : w.stage = .sensing d reached)
    (hm : LargestTimeout w.relays m) (hidle : u.ring.reading = none) :
    (reached = false → 0 < m → (u.senseProgress false).fillOn = sensingOn u w m false) ∧
    (reached = true ∨ m = 0 →
      (w.chains.any (fun k => (u.exchange k).inFlight) = true → (u.senseProgress false).fillOn = sensingOn u w m true) ∧
      (¬ w.chains.any (fun k => (u.exchange k).inFlight) = true →
        .next (u.senseProgress false).fillOn = exec .senseDeadline (sensingOn u w m true))) := by
  refine ⟨fun hreached hpos => ?_, fun hpassed => ?_⟩
  · rw [senseProgress_of_early hw hstage hm (by simp [hreached, Nat.pos_iff_ne_zero.mp hpos])]
    exact fillOn_idle _ hidle
  · have hpassed : (reached || false || decide (m = 0)) = true := by simpa using hpassed
    rw [senseProgress_of_passed hw hstage hm hpassed]
    refine ⟨fun hflight => ?_, fun hflight => ?_⟩
    · rw [if_pos hflight]
      exact fillOn_idle _ hidle
    · have hdeadline : (sensingOn u w m true).senseProgress true = u.contactFails { w with stage := .sensing m true } := by
        rw [senseProgress_of_passed (u := sensingOn u w m true) (w := { w with stage := .sensing m true }) rfl rfl hm
          (by simp)]
        exact if_neg hflight
      rw [if_neg hflight, exec_senseDeadline, hdeadline]

end

/-! ### A chain that fails (R87, R89, R111) -/

section

variable {s : State} {w : Wave} {t : Transition}

/-- The wave after its relays of status `st` on chain `c` have failed with it. -/
def failing (w : Wave) (c : Fin 8) (st : RelayStatus) : Wave :=
  { w with relays := w.given (w.having (some c) st) .chainFailed, failed := true }

/-- The fault of a chain that fails, and the states of its relays. -/
theorem chainFails_eq (ht : s.engine.transition = some t) (c : Fin 8) {rs : List Nat} (hrs : Ascending rs) :
    s.chainFails w c rs =
      { s with
        engine.actual := (s.markUnknown rs).engine.actual,
        engine.fault := faultTaken s.engine.fault
          { kind := .chain, phase := if w.close then .closing else .opening, transition := t.kind, number := t.number,
            relay := rs.head?, chain := some c, count := rs.length },
        coil.wave := some { w with relays := w.given rs .chainFailed, failed := true },
        coil.exchanges := s.coil.exchanges.put .idle c.val .failed } := by
  refine (fault_of_some (t := t) (s := State.markUnknown
    { s with
      coil.wave := some { w.mark rs .chainFailed with failed := true },
      coil.exchanges := s.coil.exchanges.put .idle c.val .failed } rs) ht .chain _ (some c) rs).trans ?_
  rw [min?_of_ascending hrs]
  rfl

theorem chainFails_exchange (s : State) (w : Wave) (c : Fin 8) (rs : List Nat) (d : Nat) :
    (s.chainFails w c rs).exchange d = if d = c then .failed else s.exchange d := by
  rw [State.exchange, State.chainFails, Rules.faulted_wave]
  exact table_get_put Exchange.idle s.coil.exchanges c d .failed

theorem chainFails_idle (hidle : s.ring.reading = none) (w : Wave) (c : Fin 8) (rs : List Nat) :
    (s.chainFails w c rs).ring.reading = none :=
  ((bystander_chainFails w c rs).reading s).trans hidle

/-- That the wave still waits for another chain. -/
theorem chainFails_any (s : State) (w : Wave) (c : Fin 8) (rs : List Nat) (p : Exchange → Bool) (hp : p .failed = false)
    (l : List Nat) :
    l.any (fun d => p ((s.chainFails w c rs).exchange d)) = true ↔ ∃ d ∈ l, d ≠ c ∧ p (s.exchange d) = true :=
  any_of_moved p (by rw [chainFails_exchange, if_pos rfl, hp])
    (fun d hd => by rw [chainFails_exchange, if_neg hd]) l

theorem failing_chains (w : Wave) (c : Fin 8) (st : RelayStatus) : (failing w c st).chains = w.chains :=
  chains_eq _ _ (given_relays w _ _)

/-- Once its relays on chain `c` have failed, the wave is SENSING on the other chains alone. -/
theorem failing_sensing_eq_nil {c : Fin 8} (hall : ∀ x ∈ w.relays, x.status = .sensing → x.relay / 128 = c) :
    (failing w c .sensing).sensing = [] := by
  rw [sensing_eq_nil_iff]
  intro x hx hstatus
  obtain ⟨y, hy, rfl⟩ := List.mem_map.mp hx
  by_cases hmem : y.relay ∈ w.having (some c) .sensing
  · simp [hmem] at hstatus
  · rw [if_neg hmem] at hstatus
    refine hmem (List.mem_map.mpr ⟨y, List.mem_filter.mpr ⟨hy, ?_⟩, rfl⟩)
    simp [hstatus, hall y hy hstatus]

end

/-- Settles O46: the third failure fails the chain, and the wave or the sense period is looked at again. -/
theorem thirdFailuresFailTheChain : Obligations.ThirdFailuresFailTheChain := by
  intro s c echo made w t hidle hw ht hasc hecho
  have hstopped : ∀ st, s.chainFails w c (w.having (some c) st) =
      { s with
        engine.actual := (s.chainFails w c (w.having (some c) st)).engine.actual,
        coil.exchanges := (s.chainFails w c (w.having (some c) st)).coil.exchanges,
        coil.wave := some (failing w c st),
        engine.fault := faultTaken s.engine.fault
          { kind := .chain, phase := if w.close then .closing else .opening, transition := t.kind, number := t.number,
            relay := (w.having (some c) st).head?, chain := some c, count := (w.having (some c) st).length } } ∧
      (s.chainFails w c (w.having (some c) st)).exchange c = .failed ∧
      (∀ d, d ≠ c.val → (s.chainFails w c (w.having (some c) st)).exchange d = s.exchange d) ∧
      ∀ r, Table.get .opened (s.chainFails w c (w.having (some c) st)).engine.actual r =
        if r ∈ w.having (some c) st then .unknown else Table.get .opened s.engine.actual r := by
    intro st
    refine ⟨?_, by rw [chainFails_exchange, if_pos rfl], fun d hd => by rw [chainFails_exchange, if_neg hd], fun r => ?_⟩
    · rw [chainFails_eq ht c (ascending_having hasc _ st)]
      rfl
    · rw [chainFails_eq ht c (ascending_having hasc _ st)]
      exact markUnknown_get s _ r
  have hwave : ∀ st, (s.chainFails w c (w.having (some c) st)).coil.wave = some (failing w c st) := fun st =>
    Rules.chainFails_wave s w c _
  have hreading : ∀ st, (s.chainFails w c (w.having (some c) st)).ring.reading = none := fun st =>
    chainFails_idle hidle w c _
  intro failing' stopped
  refine ⟨fun hx row hrow => ?writing, fun hx row hrow => ?sensing⟩
  case writing =>
    refine ⟨s.chainFails w c (w.having (some c) .writing), hstopped .writing, ?_⟩
    have hexec : exec row s = .next (s.chainFails w c (w.having (some c) .writing)).writeProgress.fillOn := by
      have hfails := writeAttemptFails_of_three_le hw c (le_refl 3)
      rw [withStatus_eq_having] at hfails
      simp only [List.mem_cons, List.not_mem_nil, or_false] at hrow
      obtain rfl | rfl := hrow
      · rw [exec_writeEcho_mismatched hx hecho, hfails]
      · rw [exec_noEcho_writing hx, hfails]
    have hwriting : (failing w c .writing).chains.any
        (fun d => ((s.chainFails w c (w.having (some c) .writing)).exchange d).isWriting) = true ↔
        ∃ d ∈ w.chains, d ≠ c ∧ ∃ m st, s.exchange d = .writing m st := by
      rw [failing_chains, chainFails_any s w c _ Exchange.isWriting rfl]
      simp only [WaveChains.isWriting_iff]
    have hlatched : (failing w c .writing).chains.any
        (fun d => decide ((s.chainFails w c (w.having (some c) .writing)).exchange d = .latched)) = true ↔
        ∃ d ∈ w.chains, d ≠ c ∧ s.exchange d = .latched := by
      rw [failing_chains, chainFails_any s w c _ (fun x => decide (x = .latched)) rfl]
      simp only [decide_eq_true_eq]
    rw [hexec]
    refine ⟨fun hmore => ?_, fun hlast hsome => ?_, fun hall => ?_⟩
    · rw [writeProgress_of_writing (hwave .writing) (hwriting.mpr hmore)]
      exact congrArg _ (fillOn_idle _ (hreading .writing))
    · have hnone := hwriting.not.mpr fun ⟨d, hd, hne, m, st, hd'⟩ => hlast d hd hne m st hd'
      obtain ⟨hwaits, hends⟩ := writeProgress_waits (hwave .writing) (hreading .writing) hnone (hlatched.mpr hsome)
      exact ⟨fun htime => congrArg _ (hwaits htime), hends⟩
    · have hnone := hwriting.not.mpr fun ⟨d, hd, hne, m, st, hd'⟩ => by rw [hall d hd hne] at hd'; cases hd'
      have hnever := hlatched.not.mpr fun ⟨d, hd, hne, hd'⟩ => by rw [hall d hd hne] at hd'; cases hd'
      rw [writeProgress_of_failed (hwave .writing) hnone hnever]
      exact congrArg _ (fillOn_of_bystander (bystander_endWave (failing w c .writing)) (hreading .writing))
  case sensing =>
    refine ⟨s.chainFails w c (w.having (some c) .sensing), hstopped .sensing, fun d reached hstage => ?_⟩
    have hexec : exec row s = .next ((s.chainFails w c (w.having (some c) .sensing)).senseProgress false).fillOn := by
      have hfails := senseAttemptFails_of_three_le hw c (le_refl 3)
      rw [withStatus_eq_having] at hfails
      simp only [List.mem_cons, List.not_mem_nil, or_false] at hrow
      obtain rfl | rfl := hrow
      · rw [exec_senseEcho_mismatched hx hecho, hfails]
      · rw [exec_noEcho_sensing hx, hfails]
    have hflight : (failing w c .sensing).chains.any
        (fun k => ((s.chainFails w c (w.having (some c) .sensing)).exchange k).inFlight) = true ↔
        ∃ k ∈ w.chains, k ≠ c ∧ ∃ a st, s.exchange k = .sensing a st := by
      rw [failing_chains, chainFails_any s w c _ Exchange.inFlight rfl]
      simp only [inFlight_iff]
    rw [hexec]
    refine ⟨fun hall => ?_, fun m hm => ?_⟩
    · rw [senseProgress_of_none (hwave .sensing) (d := d) (reached := reached) hstage (failing_sensing_eq_nil hall)]
      exact congrArg _ (fillOn_of_bystander (bystander_endWave (failing w c .sensing)) (hreading .sensing))
    · obtain ⟨hearly, hpassed⟩ := senseProgress_goesOn (hwave .sensing) (d := d) (reached := reached) hstage hm
        (hreading .sensing)
      refine ⟨fun hreached hpos => congrArg _ (hearly hreached hpos), fun h => ⟨fun hother => ?_, fun hlast => ?_⟩⟩
      · exact congrArg _ ((hpassed h).1 (hflight.mpr hother))
      · exact (hpassed h).2 (hflight.not.mpr fun ⟨k, hk, hne, a, st, hk'⟩ => hlast k hk hne a st hk')

/-! ### The deadline of a sense period (R91, R111, R126) -/

/-- A CONTACT failure but for the health of its relays: the fault, and the states of the relays it names. -/
def contactFaulted (s : State) (w : Wave) (t : Transition) : State :=
  { s with
    engine.actual := (s.markUnknown (w.having none .sensing)).engine.actual,
    engine.fault := faultTaken s.engine.fault
      { kind := .contact, phase := if w.close then .closing else .opening, transition := t.kind,
        number := t.number, relay := (w.having none .sensing).head?, chain := none,
        count := (w.having none .sensing).length },
    coil.wave := some (Rules.unsensed w) }

/-- The relays that a sense deadline fails, one after another. -/
theorem contactFailed_eq {s : State} {w : Wave} {t : Transition} (ht : s.engine.transition = some t)
    (hasc : Ascending (w.relays.map WaveRelay.relay)) :
    Rules.contactFailed s w = (w.having none .sensing).foldl (fun t r => t.degrade r) (contactFaulted s w t) := by
  have hfault := fault_of_some (t := t) (s := State.markUnknown { s with coil.wave := some (Rules.unsensed w) }
    (w.having none .sensing)) ht .contact (if w.close then .closing else .opening) none (w.having none .sensing)
  rw [min?_of_ascending (ascending_having hasc _ _)] at hfault
  rw [Rules.contactFailed, sensing_eq_having, hfault]
  rfl

theorem unsensed_eq (w : Wave) :
    Rules.unsensed w = { w with relays := w.given (w.having none .sensing) .contactFailed, failed := true } := by
  rw [Rules.unsensed, sensing_eq_having]
  rfl

/-- Settles O49: a deadline is recorded while an exchange is in flight, and otherwise fails the relays still SENSING. -/
theorem senseDeadlinesFailUnconfirmedRelays : Obligations.SenseDeadlinesFailUnconfirmedRelays := by
  intro s w t d m reached hidle hw hstage ht hasc hm rs fails handed
  have hflight : w.chains.any (fun k => (s.exchange k).inFlight) = true ↔
      ∃ c ∈ w.chains, ∃ n st, s.exchange c = .sensing n st := by
    simp only [List.any_eq_true, inFlight_iff]
  have hprogress := senseProgress_of_passed hw hstage hm (now := true) (by simp)
  refine ⟨fun hsome => ?_, fun hnone => ?_⟩
  · rw [exec_senseDeadline, hprogress, if_pos (hflight.mpr hsome)]
    exact congrArg _ (fillOn_idle _ hidle)
  · have hrs : rs.Nodup := nodup_of_ascending (ascending_having hasc none .sensing)
    have hfailed : Rules.contactFailed s { w with stage := .sensing m true } =
        rs.foldl (fun t r => t.degrade r) (contactFaulted s { w with stage := .sensing m true } t) :=
      contactFailed_eq (w := { w with stage := .sensing m true }) ht hasc
    have hframe := Wearing.foldl_degrade_frame rs (contactFaulted s { w with stage := .sensing m true } t)
    have hhands := Wearing.hands_foldl_degrade hrs (contactFaulted s { w with stage := .sensing m true } t)
    have hactual : (Rules.contactFailed s { w with stage := .sensing m true }).engine.actual =
        (s.markUnknown rs).engine.actual := by
      rw [hfailed, Wearing.foldl_degrade_engine]
      rfl
    refine ⟨Rules.contactFailed s { w with stage := .sensing m true }, ?_, ?_, fun r => ?_, fun r => ?_, fun hlength => ?_, ?_⟩
    · have hnever := hflight.not.mpr fun ⟨c, hc, n, st, hx⟩ => hnone c hc n st hx
      rw [exec_senseDeadline, hprogress, if_neg hnever,
        fillOn_of_bystander (bystander_contactFails { w with stage := .sensing m true }) hidle, Rules.contactFails_eq,
        unsensed_eq]
      rfl
    · rw [Rules.contactFailed_wave, hactual, hfailed]
      exact hframe
    · rw [hactual]
      exact markUnknown_get s rs r
    · rw [hfailed, Wearing.foldl_degrade_wearOf hrs]
      by_cases hr : r ∈ rs
      · rw [if_pos hr, if_pos hr]
        exact ⟨rfl, rfl⟩
      · rw [if_neg hr, if_neg hr]
        exact ⟨rfl, rfl⟩
    · rw [hfailed]
      exact ⟨hhands.notices hlength, hhands.wear hlength, hhands.full hlength⟩
    · rw [hfailed]
      exact hhands.others

end Sys2Proof.SensePeriods
end

section
/-! The end of the timed wait and the echoes of sense exchanges, where relays are confirmed (R90, R92, R109, R110, R163). -/

namespace Sys2Proof.Confirmations

open Sys2Proof.Machine Sys2Proof.Laws Sys2Proof.Kept Sys2Proof.Traffic Sys2Proof.Triggers Sys2Proof.CoilChains
  Sys2Proof.SensePeriods

/-! ### Confirmations do not look at the coil chain unit -/

/-- `s` with another state of the coil chain unit. -/
def withCoil (s : State) (k : CoilUnit) : State := { s with coil := k }

theorem handNotice_withCoil (s : State) (k : CoilUnit) (n : Notice) :
    (withCoil s k).handNotice n = withCoil (s.handNotice n) k := by
  unfold State.handNotice withCoil
  split <;> rfl

theorem addWear_withCoil (s : State) (k : CoilUnit) (r weight : Nat) :
    (withCoil s k).addWear r weight = withCoil (s.addWear r weight) k := by
  have hwarned : Wearing.warned (withCoil s k) r weight = withCoil (Wearing.warned s r weight) k := by
    unfold Wearing.warned
    change (if Wearing.crossesAt s r weight warnThreshold then _ else _) = _
    dsimp only
    split
    · exact handNotice_withCoil (s.setWear r { s.wearOf r with count := addedWear (s.wearOf r).count weight }) k
        (Wearing.crossing s r weight .warn)
    · rfl
  rw [Wearing.addWear_eq, Wearing.addWear_eq, hwarned]
  change (if Wearing.crossesAt s r weight retireThreshold then _ else _) = _
  split
  · exact handNotice_withCoil
      ((Wearing.warned s r weight).setWear r { count := addedWear (s.wearOf r).count weight, health := .retired }) k
      (Wearing.crossing s r weight .retire)
  · rfl

theorem confirm_withCoil (s : State) (k : CoilUnit) (close : Bool) (r : Nat) :
    (withCoil s k).confirm close r = withCoil (s.confirm close r) k :=
  addWear_withCoil
    { s with
      engine.actual := s.engine.actual.put .opened r (if close then .closed else .opened),
      engine.pendingOpen := s.engine.pendingOpen.filter (fun x => x ≠ r),
      engine.pendingClose := s.engine.pendingClose.filter (fun x => x ≠ r) } k r _

theorem confirmEach_withCoil (k : CoilUnit) (close : Bool) (l : List Nat) (s : State) :
    (withCoil s k).confirmEach close l = withCoil (s.confirmEach close l) k := by
  induction l generalizing s with
  | nil => rfl
  | cons r l ih =>
    change ((withCoil s k).confirm close r).confirmEach close l = _
    rw [confirm_withCoil]
    exact ih _

/-- What the confirmations of an event do does not depend on the coil chain unit. -/
theorem confirmsTo_withCoil {s u : State} {close : Bool} {rs : List Nat} (h : State.ConfirmsTo s u close rs)
    (k : CoilUnit) : State.ConfirmsTo (withCoil s k) (withCoil u k) close rs where
  order := by
    obtain ⟨l, hperm, hu⟩ := h.order
    refine ⟨l, hperm, ?_⟩
    rw [hu]
    exact (confirmEach_withCoil k close l { s with free := s.free + 1 }).symm
  rest := congrArg (fun v => withCoil v k) h.rest
  actual := h.actual
  opens := h.opens
  closes := h.closes
  counts := h.counts

/-! ### The end of the timed wait (R90, R109) -/

/-- The relay of a wave as the end of its timed wait leaves it. -/
def waitedRelay (x : WaveRelay) : WaveRelay :=
  if x.status = .latched then { x with status := if x.mode = .timed then .confirmed else .sensing } else x

theorem mem_latchedOf_iff {w : Wave} (hasc : Ascending (w.relays.map WaveRelay.relay)) {x : WaveRelay} (hx : x ∈ w.relays)
    (m : ConfirmMode) : x.relay ∈ Rules.latchedOf w m ↔ x.mode = m ∧ x.status = .latched := by
  rw [Rules.latchedOf, mem_relays_filter hasc _ x hx, Bool.and_eq_true, decide_eq_true_eq, decide_eq_true_eq]

theorem waited_eq {w : Wave} (hasc : Ascending (w.relays.map WaveRelay.relay)) :
    Rules.waited w = { w with relays := w.relays.map waitedRelay } := by
  have hrelays : (Rules.waited w).relays = w.relays.map waitedRelay := by
    change ((w.relays.map _).map _) = _
    rw [List.map_map]
    refine List.map_congr_left fun x hx => ?_
    have htimed := mem_latchedOf_iff hasc hx .timed
    have hsensed := mem_latchedOf_iff hasc hx .sensed
    unfold waitedRelay
    by_cases hlatched : x.status = .latched
    · cases hmode : x.mode with
      | timed => simp [Function.comp, htimed, hsensed, hlatched, hmode]
      | sensed => simp [Function.comp, htimed, hsensed, hlatched, hmode]
    · simp [Function.comp, htimed, hsensed, hlatched]
  rw [← hrelays]
  rfl

theorem latchedOf_timed_eq (w : Wave) : Rules.latchedOf w .timed =
    (w.relays.filter (fun x => decide (x.status = .latched ∧ x.mode = .timed))).map WaveRelay.relay := by
  unfold Rules.latchedOf
  congr 1
  refine List.filter_congr fun x _ => ?_
  rw [Bool.eq_iff_iff, Bool.and_eq_true, decide_eq_true_iff, decide_eq_true_iff, decide_eq_true_iff, and_comm]

/-- The state of the coil chain unit as the timed wait of `w` ends, before the sense period goes on. -/
def waitedCoil (s : State) (w : Wave) : CoilUnit :=
  { s.coil with
    wave := some { Rules.waited w with stage := .sensing (senseDeadline (Rules.waited w).sensing) false },
    exchanges := exchangesSet s.coil.exchanges (Rules.waitedExchange w)
      (w.chains.filter (fun c => decide (s.exchange c = .latched))) }

section

variable {s : State} {w : Wave}

theorem latchedOf_nodup (hasc : Ascending (w.relays.map WaveRelay.relay)) (m : ConfirmMode) :
    (Rules.latchedOf w m).Nodup :=
  nodup_of_ascending (hasc.sublist (List.filter_sublist.map _))

theorem timedOut_confirmsTo (hidle : s.ring.reading = none) (hasc : Ascending (w.relays.map WaveRelay.relay)) :
    State.ConfirmsTo (withCoil s (waitedCoil s w)) (Rules.timedOut s w) w.close (Rules.latchedOf w .timed) :=
  confirmAll_confirmsTo (withCoil s (waitedCoil s w)) w.close _ (latchedOf_nodup hasc .timed) hidle

theorem timedOut_coil (s : State) (w : Wave) : (Rules.timedOut s w).coil = waitedCoil s w :=
  Rules.confirmAll_coil (withCoil s (waitedCoil s w)) w.close _

theorem timedOut_idle (hidle : s.ring.reading = none) (hasc : Ascending (w.relays.map WaveRelay.relay)) :
    (Rules.timedOut s w).ring.reading = none := by
  rw [(timedOut_confirmsTo hidle hasc).rest]
  exact hidle

theorem timedOut_exchange (s : State) (w : Wave) (c : Nat) : (Rules.timedOut s w).exchange c =
    if c ∈ w.chains ∧ s.exchange c = .latched then Rules.waitedExchange w c else s.exchange c := by
  rw [State.exchange, timedOut_coil]
  refine (WaveChains.get_exchangesSet s.coil.exchanges _ _ c).trans (if_congr ?_ rfl rfl)
  rw [List.mem_filter, decide_eq_true_eq]

/-- A chain senses after the timed wait exactly when the wave has a relay on it to sense. -/
theorem any_sensed_iff (hasc : Ascending (w.relays.map WaveRelay.relay))
    (hstatus : ∀ x ∈ w.relays, x.status = .latched ∨ x.status = .chainFailed) (c : Nat) :
    (Rules.latchedOf w .sensed).any (fun r => decide (r / 128 = c)) = true ↔
      ∃ x ∈ w.relays.map waitedRelay, x.relay / 128 = c ∧ x.status = .sensing := by
  rw [List.any_eq_true]
  constructor
  · rintro ⟨r, hr, hc⟩
    obtain ⟨x, hx, rfl⟩ := List.mem_map.mp hr
    obtain ⟨hmode, hlatched⟩ := (mem_latchedOf_iff hasc (List.mem_of_mem_filter hx) .sensed).mp hr
    refine ⟨waitedRelay x, List.mem_map_of_mem (List.mem_of_mem_filter hx), ?_⟩
    simpa [waitedRelay, hlatched, hmode] using hc
  · rintro ⟨y, hy, hc, hsensing⟩
    obtain ⟨x, hx, rfl⟩ := List.mem_map.mp hy
    obtain hlatched | hfailed := hstatus x hx
    · cases hmode : x.mode with
      | timed => simp [waitedRelay, hlatched, hmode] at hsensing
      | sensed =>
        refine ⟨x.relay, (mem_latchedOf_iff hasc hx .sensed).mpr ⟨hmode, hlatched⟩, ?_⟩
        simpa [waitedRelay, hlatched] using hc
    · simp [waitedRelay, hfailed] at hsensing

end

theorem waitedRelay_relay (x : WaveRelay) : (waitedRelay x).relay = x.relay := by
  unfold waitedRelay
  split <;> rfl

theorem waited_chains (w : Wave) : (Rules.waited w).chains = w.chains := chains_eq _ _ (Rules.refines_waited w).relays

/-- A relay to sense has a sense exchange in flight as the wait ends. -/
theorem timedOut_inFlight {s : State} {w : Wave} (hasc : Ascending (w.relays.map WaveRelay.relay))
    (hfits : ∀ x ∈ w.relays, x.relay < 1024 ∧ (x.status = .latched ↔ s.exchange (x.relay / 128) = .latched) ∧
      (x.status = .latched ∨ x.status = .chainFailed))
    (hsensing : ∃ x ∈ w.relays.map waitedRelay, x.status = .sensing) :
    w.chains.any (fun k => ((Rules.timedOut s w).exchange k).inFlight) = true := by
  obtain ⟨x, hx, hstatus⟩ := hsensing
  obtain ⟨y, hy, rfl⟩ := List.mem_map.mp hx
  obtain ⟨hlt, hlatched, hy'⟩ := hfits y hy
  have hylatched : y.status = .latched := hy'.resolve_right fun hfailed => by simp [waitedRelay, hfailed] at hstatus
  have hchain : y.relay / 128 ∈ w.chains :=
    (mem_touchedChains _ _).mpr ⟨by omega, y.relay, List.mem_map_of_mem hy, rfl⟩
  have hsenses := (any_sensed_iff hasc (fun z hz => (hfits z hz).2.2) (y.relay / 128)).mpr
    ⟨waitedRelay y, hx, by rw [waitedRelay_relay], hstatus⟩
  refine List.any_eq_true.mpr ⟨_, hchain, ?_⟩
  rw [timedOut_exchange, if_pos ⟨hchain, hlatched.mp hylatched⟩, Rules.waitedExchange, if_pos hsenses]
  rfl

/-- The end of a wave discards its record, whatever it was. -/
theorem endWave_withCoil (s : State) (k : CoilUnit) (w v : Wave) (himages : k.images = s.coil.images)
    (henable : k.coilEnable = s.coil.coilEnable) (hfailed : v.failed = w.failed) :
    (withCoil s k).endWave v = s.endWave w := by
  have hwaveless : waveless (withCoil s k) = waveless s := by
    simp only [waveless, withCoil, himages, henable]
  rw [endWave_eq, endWave_eq, hwaveless, hfailed]
  rfl

/-- Settles O47: the TIMED relays are confirmed, and the sense period begins or the wave ends. -/
theorem timedWaitsConfirmTimedRelays : Obligations.TimedWaitsConfirmTimedRelays := by
  intro s w t hidle hw hstage ht hasc hfits timed marked
  have hexec : exec .timedWaitEnd s = .next ((Rules.timedOut s w).senseProgress false).fillOn := by
    rw [exec_timedWaitEnd hw hstage, Rules.endTimedWait_eq]
  have hmarked : Rules.waited w = marked := waited_eq hasc
  have htimed : Rules.latchedOf w .timed = timed := latchedOf_timed_eq w
  have hconfirms := timedOut_confirmsTo hidle hasc
  rw [htimed] at hconfirms
  have hwave : (Rules.timedOut s w).coil.wave =
      some { marked with stage := .sensing (senseDeadline marked.sensing) false } := by
    rw [timedOut_coil, ← hmarked]
    rfl
  have hreading := timedOut_idle hidle hasc
  have hstatus := fun x hx => (hfits x hx).2.2
  have hexchange : ∀ c, (Rules.timedOut s w).exchange c = if c ∈ w.chains ∧ s.exchange c = .latched then
      (if ∃ x ∈ marked.relays, x.relay / 128 = c ∧ x.status = .sensing then .sensing 1 .shifting else .done)
      else s.exchange c := by
    intro c
    rw [timedOut_exchange]
    exact if_congr Iff.rfl (if_congr (any_sensed_iff hasc hstatus c) rfl rfl) rfl
  have hends : (∀ x ∈ marked.relays, x.status ≠ .sensing) → exec .timedWaitEnd s =
      .next ((Rules.timedOut s w).endWave marked) := by
    intro hnone
    rw [hexec, senseProgress_of_none hwave rfl ((sensing_eq_nil_iff _).mpr hnone)]
    exact congrArg _ (fillOn_of_bystander (bystander_endWave _) hreading)
  refine ⟨fun m hm => ?senses, fun hnone => ?ends, fun hall hfailed habort hopens hcloses hgate hlatch => ?completes⟩
  case senses =>
    have hflight : m = 0 → (Wave.chains { marked with stage := .sensing (senseDeadline marked.sensing) false }).any
        (fun k => ((Rules.timedOut s w).exchange k).inFlight) = true := by
      rintro -
      obtain ⟨x, hx, hsensing, -⟩ := hm.attained
      exact (hmarked ▸ waited_chains w : marked.chains = w.chains) ▸ timedOut_inFlight hasc
        (fun y hy => ⟨(hfits y hy).1, (hfits y hy).2.1, (hfits y hy).2.2⟩) ⟨x, hx, hsensing⟩
    have hgoes : ((Rules.timedOut s w).senseProgress false).fillOn =
        sensingOn (Rules.timedOut s w) { marked with stage := .sensing (senseDeadline marked.sensing) false } m
          (decide (m = 0)) := by
      obtain ⟨hearly, hpassed⟩ := senseProgress_goesOn hwave rfl hm hreading
      by_cases hzero : m = 0
      · rw [(hpassed (.inr hzero)).1 (hflight hzero), decide_eq_true hzero]
      · rw [hearly rfl (Nat.pos_of_ne_zero hzero), decide_eq_false hzero]
    refine ⟨_, hexec.trans (congrArg _ hgoes), confirmsTo_withCoil hconfirms _, ?_, hexchange⟩
    simp only [sensingOn, timedOut_coil]
    rfl
  case ends =>
    refine ⟨withCoil (Rules.timedOut s w) s.coil, confirmsTo_withCoil hconfirms s.coil, ?_⟩
    rw [hends hnone]
    refine congrArg _ (endWave_withCoil _ _ _ _ ?_ ?_ rfl).symm
    · rw [timedOut_coil]
      rfl
    · rw [timedOut_coil]
      rfl
  case completes =>
    have hall' : timed = w.relays.map WaveRelay.relay :=
      congrArg (List.map WaveRelay.relay) (List.filter_eq_self.mpr fun x hx => decide_eq_true (hall x hx))
    have hnone : ∀ x ∈ marked.relays, x.status ≠ .sensing := by
      intro x hx
      obtain ⟨y, hy, rfl⟩ := List.mem_map.mp hx
      simp [hall y hy]
    have hcoil : waveless (Rules.timedOut s w) =
        withCoil (Rules.timedOut s w) { s.coil with wave := none, exchanges := [] } := by
      simp only [waveless, timedOut_coil]
      rfl
    have hv := confirmsTo_withCoil hconfirms { s.coil with wave := none, exchanges := [] }
    rw [← hcoil] at hv
    have hempty : ∀ l, l = [] ∨ l = w.relays.map WaveRelay.relay → l.filter (fun r => r ∉ timed) = [] := by
      rintro l (rfl | rfl)
      · rfl
      · simp [hall']
    have hvopen : (waveless (Rules.timedOut s w)).engine.pendingOpen = [] := by
      rw [hv.opens]
      refine hempty _ ?_
      change s.engine.pendingOpen = [] ∨ s.engine.pendingOpen = _
      rw [hopens]
      split
      · exact .inl rfl
      · exact .inr rfl
    have hvclose : (waveless (Rules.timedOut s w)).engine.pendingClose = [] := by
      rw [hv.closes]
      refine hempty _ ?_
      change s.engine.pendingClose = [] ∨ s.engine.pendingClose = _
      rw [hcloses]
      split
      · exact .inr rfl
      · exact .inl rfl
    have hvabort : (waveless (Rules.timedOut s w)).engine.abortNoted = false := by
      rw [hv.rest]
      exact habort
    have hvtransition : (waveless (Rules.timedOut s w)).engine.transition = some t := by
      rw [hv.rest]
      exact ht
    have hvgate : (waveless (Rules.timedOut s w)).gate = s.gate := by
      rw [hv.rest]
      rfl
    have hhalt : haltAtEnd t (waveless (Rules.timedOut s w)).gate.mode = none := by
      rw [hvgate]
      obtain hkind | hfree := hgate
      · exact if_neg hkind
      · simp [haltAtEnd, gateHalt, hfree]
    have hadvance : (waveless (Rules.timedOut s w)).advance = (ended (waveless (Rules.timedOut s w)) t).raise .done := by
      rw [EnginePhases.advance_of_done hvtransition hvopen hvclose hhalt]
      refine reexamine_of_unlatched ?_
      change (waveless (Rules.timedOut s w)).gate.latch = false
      rw [hvgate, hlatch]
    refine ⟨_, waveless (Rules.timedOut s w), hends hnone, hv, ?_, ?_, ?_⟩
    all_goals
      have hend : (Rules.timedOut s w).endWave marked = (ended (waveless (Rules.timedOut s w)) t).raise .done := by
        rw [endWave_eq, if_neg (by simp [marked, hfailed])]
        exact (if_neg (by rw [show (Rules.timedOut s w).engine.abortNoted = false from hvabort]; simp)).trans hadvance
      rw [hend]
    · simp only [ended, hvabort]
    · exact hvopen
    · exact hvclose

end Sys2Proof.Confirmations
end

section
/-! Echoes of sense exchanges that match, the interval between them, and events whose cause is not in effect (R86, R89 to
R92, R105, R110, R163). -/

namespace Sys2Proof.SenseEchoes

open Sys2Proof.Machine Sys2Proof.Laws Sys2Proof.Kept Sys2Proof.Traffic Sys2Proof.Triggers Sys2Proof.CoilChains
  Sys2Proof.SensePeriods Sys2Proof.Confirmations

/-! ### The relays that a sense exchange confirms (R90) -/

theorem matchingOf_eq (w : Wave) (c : Fin 8) (made : Image) :
    Rules.matchingOf w c made =
      (w.relays.filter (fun x => decide (x.relay / 128 = c.val ∧ x.status = .sensing ∧ x.spent = false ∧
        made.getLsbD (x.relay % 128) = w.close))).map WaveRelay.relay := by
  rw [Rules.matchingOf, Wave.examined, List.filter_map, List.filter_filter]
  congr 1
  refine List.filter_congr fun x _ => ?_
  simp only [Function.comp, ← Bool.decide_and, decide_eq_decide]
  tauto

theorem sensedWave_eq {w : Wave} (hasc : Ascending (w.relays.map WaveRelay.relay)) (c : Fin 8) (made : Image) :
    Rules.sensedWave w c made = { w with relays := w.sensed c made } :=
  sensed_eq w c made hasc

section

variable {s : State} {w : Wave} {c : Fin 8} {made : Image}

/-- The state of chain `c` after a sense exchange that has matched. -/
def sensedExchange (w : Wave) (c : Fin 8) : Exchange := if w.withStatus c .sensing = [] then .done else .senseInterval

theorem sensedExchange_eq (w : Wave) (c : Fin 8) : sensedExchange w c =
    if ∃ x ∈ w.relays, x.relay / 128 = c.val ∧ x.status = .sensing then .senseInterval else .done := by
  unfold sensedExchange
  by_cases h : ∃ x ∈ w.relays, x.relay / 128 = c.val ∧ x.status = .sensing
  · rw [if_pos h, if_neg]
    obtain ⟨x, hx, hc, hstatus⟩ := h
    exact List.ne_nil_of_mem (List.mem_map.mpr ⟨x, List.mem_filter.mpr ⟨hx, by simp [hc, hstatus]⟩, rfl⟩)
  · rw [if_neg h, if_pos]
    rw [Wave.withStatus, List.map_eq_nil_iff, List.filter_eq_nil_iff]
    intro x hx
    have hnot : ¬ (x.relay / 128 = c.val ∧ x.status = .sensing) := fun hboth => h ⟨x, hx, hboth⟩
    simpa [and_comm] using hnot

theorem sensedExchange_inFlight (w : Wave) (c : Fin 8) : (sensedExchange w c).inFlight = false := by
  unfold sensedExchange
  split <;> rfl

theorem sensedOnce_coil : (Rules.sensedOnce s w c made).coil =
    { s.coil with
      wave := some (Rules.sensedWave w c made),
      exchanges := s.coil.exchanges.put .idle c (sensedExchange (Rules.sensedWave w c made) c) } := by
  unfold Rules.sensedOnce State.setExchange
  rw [Rules.confirmAll_coil]
  rfl

theorem sensedOnce_confirmsTo (hidle : s.ring.reading = none) (hasc : Ascending (w.relays.map WaveRelay.relay)) :
    State.ConfirmsTo { s with coil := (Rules.sensedOnce s w c made).coil } (Rules.sensedOnce s w c made) w.close
      (Rules.matchingOf w c made) := by
  have hnodup : (Rules.matchingOf w c made).Nodup := by
    rw [matchingOf_eq]
    exact nodup_of_ascending (hasc.sublist (List.filter_sublist.map _))
  have h := confirmAll_confirmsTo { s with coil.wave := some (Rules.sensedWave w c made) } w.close _ hnodup hidle
  exact confirmsTo_withCoil h (Rules.sensedOnce s w c made).coil

theorem sensedOnce_moves :
    State.Moves { s with coil.wave := some (Rules.sensedWave w c made) }
      { s with coil := (Rules.sensedOnce s w c made).coil } c (sensedExchange (Rules.sensedWave w c made) c) := by
  rw [sensedOnce_coil]
  exact setExchange_moves { s with coil.wave := some (Rules.sensedWave w c made) } c _

theorem sensedOnce_idle (hidle : s.ring.reading = none) (hasc : Ascending (w.relays.map WaveRelay.relay)) :
    (Rules.sensedOnce s w c made).ring.reading = none := by
  rw [(sensedOnce_confirmsTo hidle hasc).rest]
  exact hidle

/-- Whether another exchange is in flight after one has matched. -/
theorem sensedOnce_inFlight : (w.chains.any fun k => ((Rules.sensedOnce s w c made).exchange k).inFlight) = true ↔
    ∃ k ∈ w.chains, k ≠ c ∧ ∃ a st, s.exchange k = .sensing a st := by
  have hmoves := sensedOnce_moves (s := s) (w := w) (c := c) (made := made)
  have hhere : ((Rules.sensedOnce s w c made).exchange c).inFlight = false :=
    (congrArg Exchange.inFlight hmoves.here).trans (sensedExchange_inFlight _ c)
  refine (any_of_moved Exchange.inFlight hhere hmoves.others w.chains).trans ?_
  simp only [inFlight_iff]
  rfl

end

/-! ### The interval between exchanges -/

theorem exec_senseIntervalEnd {s : State} {c : Fin 8} (hx : s.exchange c = .senseInterval) :
    exec (.senseIntervalEnd c) s =
      .next (State.fillOn (if s.deadlineReached then s else s.setExchange c (.sensing 1 .shifting))) := by
  change execSenseIntervalEnd c s = _
  simp only [execSenseIntervalEnd, hx]

theorem deadlineReached_of_sensing {s : State} {w : Wave} {d : Nat} {b : Bool} (hw : s.coil.wave = some w)
    (hstage : w.stage = .sensing d b) : s.deadlineReached = b := by
  obtain ⟨close, relays, time, stage, failed⟩ := w
  obtain rfl : stage = .sensing d b := hstage
  simp only [State.deadlineReached, hw]

/-- Settles O48: a matching sense echo confirms its relays, and the sense period is looked at again. -/
theorem senseEchoesConfirmMatchingRelays : Obligations.SenseEchoesConfirmMatchingRelays := by
  refine ⟨?echo, fun s c w d hidle hw hx => ⟨fun hstage => ?goesOn, fun hstage => ?passed⟩⟩
  case echo =>
    intro s c n d reached echo made w hidle hw hstage hx hecho hasc relays matching
    have hexec : exec (.senseEcho c echo made) s = .next ((Rules.sensedOnce s w c made).senseProgress false).fillOn := by
      rw [exec_senseEcho_matched hx hecho, Rules.senseCompletes_eq c made hw]
    have hsensed : Rules.sensedWave w c made = { w with relays := relays } := sensedWave_eq hasc c made
    have hconfirms := sensedOnce_confirmsTo (c := c) (made := made) hidle hasc
    have hmoves := sensedOnce_moves (s := s) (w := w) (c := c) (made := made)
    rw [matchingOf_eq] at hconfirms
    rw [sensedExchange_eq, hsensed] at hmoves
    have hwave : (Rules.sensedOnce s w c made).coil.wave = some { w with relays := relays } := by
      rw [sensedOnce_coil, hsensed]
    have hreading := sensedOnce_idle (c := c) (made := made) hidle hasc
    have hchains : Wave.chains { w with relays := relays } = w.chains := chains_eq _ _ (sensed_relays w c made)
    have hflight := sensedOnce_inFlight (s := s) (w := w) (c := c) (made := made)
    rw [← hchains] at hflight
    refine ⟨Rules.sensedOnce s w c made, hconfirms, hmoves, fun hnone => ?_, fun m hm => ?_⟩
    · rw [hexec, senseProgress_of_none hwave (d := d) (reached := reached) hstage ((sensing_eq_nil_iff _).mpr hnone)]
      exact congrArg _ (fillOn_of_bystander (bystander_endWave _) hreading)
    · obtain ⟨hearly, hpassed⟩ := senseProgress_goesOn hwave (d := d) (reached := reached) hstage hm hreading
      rw [hexec]
      rw [hchains] at hflight
      refine ⟨fun hreached hpos => congrArg _ (hearly hreached hpos), fun h => ⟨fun hother => ?_, fun hlast => ?_⟩⟩
      · exact congrArg _ ((hpassed h).1 (by rw [hchains]; exact hflight.mpr hother))
      · exact (hpassed h).2 (by
          rw [hchains]
          exact hflight.not.mpr fun ⟨k, hk, hne, a, st, hk'⟩ => hlast k hk hne a st hk')
  case goesOn =>
    refine ⟨s.setExchange c (.sensing 1 .shifting), ?_, setExchange_moves s c _⟩
    rw [exec_senseIntervalEnd hx, deadlineReached_of_sensing hw hstage]
    exact congrArg _ (fillOn_idle _ hidle)
  case passed =>
    rw [exec_senseIntervalEnd hx, deadlineReached_of_sensing hw hstage]
    exact congrArg _ (fillOn_idle _ hidle)

/-! ### Events without a cause (R86, R105; logs 5, 23) -/

theorem senseProgress_of_unsensing {s : State} (h : ∀ w, s.coil.wave = some w → ∀ d b, w.stage ≠ .sensing d b)
    (now : Bool) : s.senseProgress now = s := by
  unfold State.senseProgress
  split
  next w hw =>
    split
    next d b hstage => exact absurd hstage (h w hw d b)
    next => rfl
    next => rfl
  next => rfl

/-- Settles O50: each event looks for its cause first, and without it fills nothing on an idle port. -/
theorem eventsWithoutACauseChangeNothing : Obligations.EventsWithoutACauseChangeNothing := by
  intro s c echo made straps hidle
  have hstays : ∀ u : State, u = s → Host.Outcome.next u.fillOn = (.next s : Host.Outcome State Fault Refusal) := by
    rintro u rfl
    exact congrArg _ (fillOn_idle u hidle)
  refine ⟨hstays s rfl, fun h => hstays _ ?write, fun h => hstays _ ?sense, fun h => hstays _ ?none,
    fun h => hstays _ ?shift, fun h => hstays _ ?interval, fun h => hstays _ ?wait,
    fun h => hstays _ (senseProgress_of_unsensing h true), fun h => ⟨hstays _ (if_neg h), hstays _ ?guard⟩,
    fun h => hstays _ ?resolution, fun h => hstays _ ?reset, fun h => hstays _ (if_neg (by simp [h]))⟩
  case write =>
    split
    next n hx => exact absurd hx (h n)
    all_goals rfl
  case sense =>
    split
    next n hx => exact absurd hx (h n)
    all_goals rfl
  case none =>
    split
    next n hx => exact absurd hx (h n).1
    next n hx => exact absurd hx (h n).2
    all_goals rfl
  case shift =>
    split
    next n hx => exact absurd hx (h n).1
    next n hx => exact absurd hx (h n).2
    all_goals rfl
  case interval =>
    split
    next hx => exact absurd hx h
    all_goals rfl
  case wait =>
    split
    next w hw =>
      split
      next hstage => exact absurd hstage (h w hw)
      all_goals rfl
    next => rfl
  case guard =>
    split
    next t g hphase _ _ => exact absurd hphase h
    next => rfl
  case resolution => simp only [h]
  case reset => simp only [h]

end Sys2Proof.SenseEchoes
end

section
/-! Resets: how each begins, what each leaves, and how each ends (R18, R35, R168, R172, R188, R193, R194). -/

namespace Sys2Proof.Resets

open Sys2Proof.Machine Sys2Proof.Laws Sys2Proof.Kept Sys2Proof.Traffic Sys2Proof.Triggers

/-! ### What a reset sets at its start (R18, R35, R194) -/

theorem initial_result_word : ∀ k, k < 9 →
    ResultRecord.initial.word k = if k = 2 then 0x7FFFFFFF else if k = 3 then 0xFFFFFF else 0 := by decide

theorem initial_class_word : ∀ k, k < 4 →
    ClassEntry.initial.word k = if k = 2 then 1 else if k = 3 then 0x101 else 0 := by decide

theorem emptyBoard_beginReset (s : State) (source : ResetSource) (lost : Bool) : (s.beginReset source lost).EmptyBoard := by
  have hcauses : ∀ c : Cause, (0#14).getLsbD c.bit = false := fun _ => BitVec.getLsbD_zero
  cases source with
  | powerOn | rstn | softFrame | linkLoss =>
    exact ⟨rfl, rfl, ⟨rfl, rfl⟩, initial_result_word, rfl, rfl, rfl, hcauses⟩

/-- What the spaces of a hard reset read as. -/
theorem hardValues_of_initial {u : State} (htopology : u.topology = .initial) (hstore : u.store = .initial)
    (hwear : u.wear = .initial) (hparams : u.control.params = .initial u.control.params.arbitration) : u.HardValues where
  relays i := by
    rw [State.wordAt, htopology]
    exact (by decide : RelayEntry.absent.word = 0)
  classes i := by
    rw [State.wordAt, htopology]
    exact initial_class_word _ (Nat.mod_lt i (by decide))
  ports i := by
    rw [State.wordAt, htopology]
    exact (by decide : PortEntry.initial.word = 0)
  sites i := by
    rw [State.wordAt, htopology]
    exact (by decide : 0#31 ++ BitVec.ofBool false = 0)
  pins i := by rw [State.wordAt, htopology]; rfl
  portMap i := by rw [State.wordAt, htopology]; rfl
  directory i := by
    rw [State.wordAt, hstore]
    exact (by decide : DirEntry.initial.word = 0)
  entries i := by rw [State.wordAt, hstore]; rfl
  wear i := by
    rw [State.wordAt, hwear]
    split
    · rfl
    · exact (by decide : 0#30 ++ Health.good.code = 0)
  notices := by rw [hwear]; rfl
  validation := by rw [State.wordAt, htopology]; rfl
  params := by
    simp only [State.wordAt]
    rw [hparams]
    exact ⟨rfl, rfl, rfl, rfl, (by decide : 0#18 ++ 0#14 = 0)⟩

theorem hardValues_beginReset (s : State) {source : ResetSource} (hhard : source.isHard = true) (lost : Bool) :
    (s.beginReset source lost).HardValues := by
  cases source with
  | powerOn | rstn => exact hardValues_of_initial rfl rfl rfl rfl
  | softFrame | linkLoss => cases hhard

section

variable (s : State) (source : ResetSource) (lost : Bool)

theorem beginReset_ring : (s.beginReset source lost).ring = { s.ring with cursor := none } := by
  cases source with
  | powerOn | rstn | softFrame | linkLoss => rfl

theorem beginReset_control : (s.beginReset source lost).control =
    { s.control with
      mode := .configure, params := (s.beginReset source lost).control.params,
      resetting := some { source := source, linkLost := lost } } := by
  cases source with
  | powerOn | rstn | softFrame | linkLoss => rfl

/-- A READ that is not being filled is not begun by a reset. -/
theorem fillOn_beginReset (hidle : s.ring.reading = none) :
    (s.beginReset source lost).fillOn = s.beginReset source lost :=
  fillOn_of_bystander (bystander_beginReset source lost) hidle

end

/-! ### Link loss, RSTN and the reset in progress (R193) -/

theorem rstnSource_of_not_powerOn {s : State} (h : ∀ r, s.control.resetting = some r → r.source ≠ .powerOn) :
    s.rstnSource = .rstn := by
  unfold State.rstnSource
  split
  next hsome => exact absurd rfl (h _ hsome)
  next => rfl

theorem linkLostInReset_iff (s : State) :
    s.linkLostInReset = true ↔ ∃ r, s.control.resetting = some r ∧ r.linkLost = true := by
  unfold State.linkLostInReset
  split
  next r hr => simp [hr]
  next hnone => simp [hnone]

theorem exec_rstnLow {s : State} (hidle : s.ring.reading = none)
    (h : ∀ r, s.control.resetting = some r → r.source ≠ .powerOn) :
    exec .rstnLow s = .next (State.beginReset { s with control.rstnLow := true, free := s.free + 1 } .rstn
      s.linkLostInReset) := by
  change Host.Outcome.next (State.fillOn (State.beginReset _ s.rstnSource s.linkLostInReset)) = _
  rw [rstnSource_of_not_powerOn h]
  exact congrArg _ (fillOn_beginReset _ .rstn _ hidle)

theorem exec_linkLoss_of_unreset {s : State} (hidle : s.ring.reading = none) (htimer : s.control.linkTimer = true)
    (hnone : s.control.resetting = none) :
    exec .linkLoss s = .next (State.beginReset { s with control.linkTimer := false } .linkLoss false) := by
  change execLinkLoss s = _
  simp only [execLinkLoss, htimer, if_true, hnone]
  exact congrArg _ (fillOn_beginReset _ .linkLoss _ hidle)

theorem exec_linkLoss_of_resetting {s : State} {r : ResetRun} (hidle : s.ring.reading = none)
    (htimer : s.control.linkTimer = true) (hr : s.control.resetting = some r) :
    exec .linkLoss s =
      .next { s with control.linkTimer := false, control.resetting := some { r with linkLost := true } } := by
  change execLinkLoss s = _
  simp only [execLinkLoss, htimer, if_true, hr]
  exact congrArg _ (fillOn_idle _ hidle)

/-- Settles O54: each source begins the reset of its kind, which empties the board. -/
theorem resetsEmptyTheBoard : Obligations.ResetsEmptyTheBoard := by
  intro s hidle
  refine ⟨⟨s.beginReset .powerOn false, ?_, emptyBoard_beginReset .., hardValues_beginReset s rfl false,
      beginReset_ring .., beginReset_control ..⟩,
    fun hsource => ⟨_, exec_rstnLow hidle hsource, emptyBoard_beginReset .., hardValues_beginReset _ rfl _,
      beginReset_ring .., s.linkLostInReset, beginReset_control .., linkLostInReset_iff s⟩,
    fun e a b hacts => ⟨_, RingPort.exec_softReset hacts a, emptyBoard_beginReset .., rfl, rfl, rfl, rfl, rfl⟩,
    fun htimer => ⟨fun hnone => ⟨_, exec_linkLoss_of_unreset hidle htimer hnone, emptyBoard_beginReset .., rfl, rfl, rfl,
      rfl, rfl⟩, fun r hr => exec_linkLoss_of_resetting hidle htimer hr⟩⟩
  exact congrArg _ (fillOn_beginReset s .powerOn false hidle)

/-! ### How a reset ends (R172, R188, R193, R194) -/

section

variable {s : State} {r : ResetRun}

theorem mayEndReset_iff (s : State) (r : ResetRun) : s.mayEndReset r = true ↔
    ¬ (s.control.rstnLow = true ∨ s.control.lockLost = true ∧ (r.source = .linkLoss ∨ r.linkLost = true)) := by
  unfold State.mayEndReset
  cases s.control.rstnLow <;> cases s.control.lockLost <;> simp

theorem exec_resetEnd_of_waiting (hidle : s.ring.reading = none) (hr : s.control.resetting = some r)
    (hwaits : ¬ s.mayEndReset r = true) (straps : BitVec 4) : exec (.resetEnd straps) s = .next s := by
  change execResetEnd straps s = _
  simp only [execResetEnd, hr, if_neg hwaits]
  exact congrArg _ (fillOn_idle _ hidle)

theorem exec_resetEnd_of_mayEnd (hidle : s.ring.reading = none) (hr : s.control.resetting = some r)
    (hends : s.mayEndReset r = true) (straps : BitVec 4) :
    exec (.resetEnd straps) s = .next (s.finishReset r straps) := by
  change execResetEnd straps s = _
  simp only [execResetEnd, hr, if_pos hends]
  exact congrArg _ (fillOn_of_bystander (bystander_finishReset r straps) hidle)

theorem isHard_iff (source : ResetSource) : source.isHard = true ↔ source = .powerOn ∨ source = .rstn := by
  cases source <;> simp [ResetSource.isHard]

theorem finishReset_of_hard (s : State) (hhard : r.source.isHard = true) (straps : BitVec 4) :
    s.finishReset r straps = State.raise
      { s with
        ring.address := straps, coil.coilEnable := true, control.params.arbitration := straps,
        control.resetting := none, control.resetRecord := endedRecord s.control.resetRecord r,
        control.linkTimer := s.control.lockLost } .reset := by
  simp only [State.finishReset, hhard, if_true]

theorem finishReset_of_soft (s : State) (hsoft : ¬ r.source.isHard = true) (straps : BitVec 4) :
    s.finishReset r straps = State.raise
      { s with
        coil.coilEnable := true, control.resetting := none,
        control.resetRecord := endedRecord s.control.resetRecord r,
        control.linkTimer := s.control.lockLost } .reset := by
  simp only [State.finishReset, if_neg hsoft]

theorem endedRecord_of_hard (old : ResetRecord) (hhard : r.source.isHard = true) : endedRecord old r =
    { powerOn := decide (r.source = .powerOn), rstn := decide (r.source = .rstn), softFrame := false,
      linkLoss := r.linkLost } := by
  obtain ⟨source, lost⟩ := r
  cases source with
  | powerOn | rstn => simp [endedRecord, ResetRecord.clear]
  | softFrame | linkLoss => cases hhard

theorem endedRecord_of_soft (old : ResetRecord) (hsoft : ¬ r.source.isHard = true) : endedRecord old r =
    { old with
      softFrame := old.softFrame || decide (r.source = .softFrame),
      linkLoss := old.linkLoss || decide (r.source = .linkLoss) || r.linkLost } := by
  obtain ⟨source, lost⟩ := r
  cases source with
  | powerOn | rstn => exact absurd rfl hsoft
  | softFrame | linkLoss => simp [endedRecord]

end

/-- Settles O55: a reset whose lines allow it ends with its record and RESET raised. -/
theorem resetsEndWithTheirRecord : Obligations.ResetsEndWithTheirRecord := by
  refine ⟨?ends, fun s hidle => ⟨congrArg _
    (fillOn_idle { s with control.rstnLow := false } hidle), congrArg _
    (fillOn_idle { s with control.lockLost := false, control.linkTimer := false } hidle), fun hlock => ?lost,
    fun hlock => ?still⟩⟩
  case ends =>
    intro s r straps hidle hr waits hard old
    refine ⟨fun hwaits => exec_resetEnd_of_waiting hidle hr ((mayEndReset_iff s r).not.mpr (not_not.mpr hwaits)) straps,
      fun hends => ⟨_, exec_resetEnd_of_mayEnd hidle hr ((mayEndReset_iff s r).mpr hends) straps, ?_⟩⟩
    by_cases hhard : r.source.isHard = true
    · rw [finishReset_of_hard s hhard]
      exact ⟨rfl, fun _ => ⟨rfl, rfl, endedRecord_of_hard _ hhard⟩, fun hsoft => absurd ((isHard_iff _).mp hhard) hsoft,
        isRaised_raise _ _⟩
    · rw [finishReset_of_soft s hhard]
      exact ⟨rfl, fun h => absurd ((isHard_iff _).mpr h) hhard, fun _ => ⟨rfl, rfl, endedRecord_of_soft _ hhard⟩,
        isRaised_raise _ _⟩
  case lost =>
    change execSymbolLockLost s = _
    simp only [execSymbolLockLost, hlock, Bool.false_eq_true, if_false]
    exact congrArg _ (fillOn_idle _ hidle)
  case still =>
    change execSymbolLockLost s = _
    simp only [execSymbolLockLost, hlock, if_true]
    exact congrArg _ (fillOn_idle _ hidle)

/-! ### The machine after reset (R194) -/

theorem canonical_reset : State.reset.Canonical where
  relayMap := table_wf_nil _
  classes := table_wf_nil _
  ports := table_wf_nil _
  sites := table_wf_nil _
  pinMap := table_wf_nil _
  portMap := table_wf_nil _
  directory := table_wf_nil _
  pool := table_wf_nil _
  holdings := table_wf_nil _
  baseMap := table_wf_nil _
  actual := table_wf_nil _
  images := table_wf_nil _
  exchanges := table_wf_nil _
  wear := table_wf_nil _
  base := nofun
  target := nofun

theorem agrees_reset : State.reset.Agrees where
  engine := {
    record := by decide
    atRest := fun _ => ⟨rfl, rfl, fun _ => rfl⟩
    breakBeforeMake := nofun
    quietInFlight := nofun
    quietAtRest := fun _ => rfl
    guardWait := by decide
    abortNoted := nofun
    suspension := by decide
    suspendedPhase := by decide
    wave := by decide
    direction := nofun
    chainsIdle := fun _ _ => rfl }
  mode := {
    lockout := by decide
    configure := fun _ => rfl
    atRest := fun _ => ⟨rfl, rfl, rfl, fun _ => rfl⟩
    lockoutCalls := nofun
    unmaskable := by decide
    resetting := fun _ => rfl
    supply := by decide
    bound := nofun
    reason := by decide }

theorem pendingAgrees_reset : State.reset.PendingAgrees where
  unknown := nofun
  opens := .nil
  closes := .nil
  apart := nofun
  wave := nofun
  waveOrder := nofun
  planOpens := nofun
  planCloses := nofun
  planApart := nofun

theorem holdsPresent_reset : State.reset.HoldsPresent where
  holdings _ h := absurd rfl h
  baseMap _ h := absurd rfl h
  base := nofun
  target := nofun
  plan := nofun

theorem inRange_reset : State.reset.InRange where
  waveLimit := (by decide : IsWaveLimit 16)
  guardTimeout := (by decide : 1 ≤ 2000 ∧ 2000 ≤ 65535)
  hotWeight := (by decide : 1 ≤ 10 ∧ 10 ≤ 255)
  ratedLife _ := (by decide : ClassEntry.initial.ratedLife ≠ 0)
  derate _ := (by decide : ClassEntry.initial.derate.toNat ≤ 100)
  warn _ := (by decide : ClassEntry.initial.warn ≠ 0)
  count _ := (by decide : DirEntry.initial.count.toNat ≤ 64)
  notices := ⟨Nat.zero_le _, nofun⟩
  topology := ⟨nofun, nofun, nofun, nofun, nofun, nofun⟩
  store := ⟨nofun, nofun⟩
  relays := ⟨nofun, nofun, nofun, nofun⟩
  lists := nofun
  chains := ⟨nofun, nofun⟩
  wave := nofun
  transition := nofun
  plan := nofun
  context := nofun

theorem boardAgrees_reset : State.reset.BoardAgrees where
  settled _ _ _ := rfl
  opens := nofun
  closes := nofun
  withinBase := nofun
  idle _ := rfl
  number := nofun
  context := nofun
  plan := nofun

theorem waveAgrees_reset : State.reset.WaveAgrees where
  writing := nofun
  latched := nofun
  sensing := nofun
  confirmed := nofun
  failed := nofun
  waits := nofun
  untouched := nofun

/-- A power-on reset that ends with quiet lines and straps 0 leaves nothing of the state before but its queue, its trace
and its count of free values. -/
theorem finishReset_beginReset_powerOn {s : State} (hidle : s.ring.reading = none) (hrstn : s.control.rstnLow = false)
    (hlock : s.control.lockLost = false) :
    (s.beginReset .powerOn false).finishReset { source := .powerOn, linkLost := false } 0 =
      { State.reset with pending := s.pending, free := s.free, ring.sent := s.ring.sent } := by
  have hend := finishReset_of_hard (r := { source := .powerOn, linkLost := false }) (s.beginReset .powerOn false) rfl 0
  refine hend.trans ?_
  simp only [State.beginReset, ResetSource.isHard, State.softValues, State.hardValues, State.raise, if_true, hidle, hrstn,
    hlock]
  rfl

/-- Settles O56: the reset state is what a power-on reset leaves, and meets every invariant. -/
theorem resetStateMeetsEveryInvariant : Obligations.ResetStateMeetsEveryInvariant := by
  refine ⟨⟨canonical_reset, agrees_reset, pendingAgrees_reset, holdsPresent_reset, inRange_reset, boardAgrees_reset,
    waveAgrees_reset⟩, fun s u v hidle hrstn hlock hpower hend => ?_⟩
  have hu : s.beginReset .powerOn false = u := by
    have hexec : Host.Outcome.next (s.beginReset .powerOn false).fillOn = _ := hpower
    rw [fillOn_beginReset s .powerOn false hidle] at hexec
    exact Host.Outcome.next.inj hexec
  subst hu
  have hends : (s.beginReset .powerOn false).mayEndReset { source := .powerOn, linkLost := false } = true := by
    rw [mayEndReset_iff]
    change ¬ (s.control.rstnLow = true ∨ s.control.lockLost = true ∧ _)
    simp [hrstn, hlock]
  have hidle' : (s.beginReset .powerOn false).ring.reading = none := hidle
  rw [exec_resetEnd_of_mayEnd (r := { source := .powerOn, linkLost := false }) hidle' rfl hends,
    finishReset_beginReset_powerOn hidle hrstn hlock] at hend
  exact (Host.Outcome.next.inj hend).symm

end Sys2Proof.Resets
end

section
/-! The READY and ALERT lines, and the words of the records field by field (R17, R27, R56, R99, R115, R124, R130, R142, R179,
R191, R194, section 10.7). -/

namespace Sys2Proof.Records

open Sys2Proof.Machine Sys2Proof.Laws

/-! ### Words laid out field by field -/

/-- The part `w` of a word, which begins at its bit `b`, holds each field in its place, and 0 in every bit outside them. -/
def SpellsFrom (b : Nat) {n : Nat} (w : BitVec n) (fields : List WordField) : Prop :=
  (∀ f ∈ fields, b ≤ f.lo ∧ w.extractLsb' (f.lo - b) f.width = BitVec.ofNat f.width f.value) ∧
    ∀ k, k < n → (∀ f ∈ fields, b + k < f.lo ∨ f.lo + f.width ≤ b + k) → w.getLsbD k = false

/-- A whole word is laid out as the part from its bit 0. -/
theorem SpellsFrom.laid {w : Word} {fields : List WordField} (h : SpellsFrom 0 w fields) : Laid w fields := by
  obtain ⟨hfields, hrest⟩ := h
  refine ⟨fun f hf => (hfields f hf).2, fun k hk hout => hrest k hk fun f hf => ?_⟩
  simpa using hout f hf

theorem spells_zero (b n : Nat) : SpellsFrom b (0#n) [] := ⟨nofun, fun _ _ _ => BitVec.getLsbD_zero⟩

section

variable {b n m : Nat} {hi : BitVec n} {fields : List WordField}

theorem extractLsb'_append_above (hi : BitVec n) (lo : BitVec m) (k width : Nat) :
    (hi ++ lo).extractLsb' (k + m) width = hi.extractLsb' k width := by
  refine BitVec.eq_of_getLsbD_eq fun i hi' => ?_
  have hge : ¬ k + m + i < m := by omega
  have hsub : k + m + i - m = k + i := by omega
  simp only [BitVec.getLsbD_extractLsb', BitVec.getLsbD_append, hge, if_false, hsub]

/-- The fields of a part keep their places with `m` more bits below it. -/
theorem SpellsFrom.kept (h : SpellsFrom (b + m) hi fields) (lo : BitVec m) : ∀ f ∈ fields,
    b ≤ f.lo ∧ (hi ++ lo).extractLsb' (f.lo - b) f.width = BitVec.ofNat f.width f.value := by
  intro f hf
  obtain ⟨hle, hvalue⟩ := h.1 f hf
  have hlo : f.lo - b = f.lo - (b + m) + m := by omega
  exact ⟨by omega, by rw [hlo, extractLsb'_append_above, hvalue]⟩

/-- And so do the bits outside them. -/
theorem SpellsFrom.unnamed (h : SpellsFrom (b + m) hi fields) (lo : BitVec m) {k : Nat} (hk : k < n + m) (hge : ¬ k < m)
    (hout : ∀ f ∈ fields, b + k < f.lo ∨ f.lo + f.width ≤ b + k) : (hi ++ lo).getLsbD k = false := by
  rw [BitVec.getLsbD_append, if_neg hge]
  refine h.2 _ (by omega) fun f hf => ?_
  have := hout f hf
  omega

/-- Bits that are not named stand below the fields of a part. -/
theorem SpellsFrom.gap (h : SpellsFrom (b + m) hi fields) : SpellsFrom b (hi ++ 0#m) fields := by
  refine ⟨h.kept _, fun k hk hout => ?_⟩
  by_cases hlow : k < m
  · simp [BitVec.getLsbD_append, hlow]
  · exact h.unnamed _ hk hlow hout

/-- A field stands below the fields of a part. -/
theorem SpellsFrom.field (h : SpellsFrom (b + m) hi fields) {lo : BitVec m} {v : Nat} (hlo : lo = BitVec.ofNat m v) :
    SpellsFrom b (hi ++ lo) (⟨b, m, v⟩ :: fields) := by
  have hhere : (hi ++ lo).extractLsb' (b - b) m = BitVec.ofNat m v := by
    refine Eq.trans (BitVec.eq_of_getLsbD_eq fun i hi' => ?_) hlo
    simp [BitVec.getLsbD_append, hi']
  refine ⟨List.forall_mem_cons.mpr ⟨⟨Nat.le_refl b, hhere⟩, h.kept lo⟩, fun k hk hout => ?_⟩
  obtain ⟨hfield, hout⟩ := List.forall_mem_cons.mp hout
  refine h.unnamed lo hk (fun hlow => ?_) hout
  simp only at hfield
  omega

end

/-! ### The codes of the fields (section 10.7) -/

theorem bits_ofBool (b : Bool) : BitVec.ofBool b = BitVec.ofNat 1 b.toNat := by cases b <;> rfl

theorem bits_toNat {n : Nat} (x : BitVec n) : x = BitVec.ofNat n x.toNat := (BitVec.ofNat_toNat n x).trans (by simp) |>.symm

theorem absentField_eq (n : Nat) (o : Option Nat) : absentField n o = BitVec.ofNat n (orOnes n o) := by
  cases o with
  | some v => rfl
  | none =>
    refine BitVec.eq_of_toNat_eq ?_
    rw [absentField, BitVec.toNat_allOnes, orOnes, BitVec.toNat_ofNat, Nat.mod_eq_of_lt]
    exact Nat.sub_lt (Nat.two_pow_pos n) Nat.one_pos

theorem ownerCode_eq (o : Option Owner) : ownerCode o = BitVec.ofNat 4 (o.elim 0 ownerNumber) := by
  rcases o with _ | ⟨_ | _⟩ <;> rfl

theorem ownerField_eq (o : Option Owner) : ownerField o = BitVec.ofNat 4 (orOnes 4 (o.map ownerNumber)) := by
  rcases o with _ | ⟨_ | _⟩ <;> rfl

theorem mode_code (m : Mode) : m.code = BitVec.ofNat 2 ([Mode.configure, .run, .lockedOut].idxOf m) := by
  cases m <;> rfl

theorem phase_code (p : EnginePhase) : p.code =
    BitVec.ofNat 3 ([EnginePhase.idle, .guarding, .opening, .closing, .suspended, .lockout].idxOf p) := by
  cases p <;> rfl

theorem action_code (a : Action) : a.code = BitVec.ofNat 2 ([Action.check, .stage, .apply].idxOf a) := by
  cases a <;> rfl

theorem gateMode_code (m : GateMode) : m.code = BitVec.ofNat 2 ([GateMode.normal, .single, .free, .halt].idxOf m) := by
  cases m <;> rfl

theorem haltReason_code (r : HaltReason) : r.code =
    BitVec.ofNat 3 ([HaltReason.none, .command, .stopMark, .singleDone, .fault].idxOf r) := by
  cases r <;> rfl

theorem suspendReason_code (r : SuspendReason) :
    r.code = BitVec.ofNat 2 ([SuspendReason.none, .fault, .aborted].idxOf r) := by
  cases r <;> rfl

theorem transitionKind_code (k : TransitionKind) :
    k.code = BitVec.ofNat 2 ([TransitionKind.stepped, .rollback, .safeOpen].idxOf k + 1) := by
  cases k <;> rfl

theorem faultPhase_code (p : FaultPhase) :
    p.code = BitVec.ofNat 2 ([FaultPhase.guard, .opening, .closing].idxOf p + 1) := by
  cases p <;> rfl

theorem faultKind_code (k : FaultKind) :
    k.code = BitVec.ofNat 2 ([FaultKind.chain, .contact, .guardTimeout].idxOf k + 1) := by
  cases k <;> rfl

theorem outcome_code (o : ResolveOutcome) : o.code =
    BitVec.ofNat 4 ([ResolveOutcome.none, .ok, .badSet, .unmapped, .unroutable, .noTrunk, .retired, .overlap, .short,
      .crossSite, .cancelled].idxOf o) := by
  cases o <;> rfl

theorem stepMode_code (m : StepMode) : m.code = BitVec.ofNat 2 ([StepMode.replace, .add, .clear].idxOf m) := by
  cases m <;> rfl

theorem contact_code (x : Contact) : x.code = BitVec.ofNat 2 ([Contact.opened, .closed, .unknown].idxOf x) := by
  cases x <;> rfl

theorem validation_code (o : ValidationOutcome) : o.code =
    BitVec.ofNat 3 ([ValidationOutcome.none, .ok, .badEndpoints, .badClass, .classOrder, .badGuard, .pinAlias].idxOf o) := by
  cases o <;> rfl

theorem slotCode_eq (o : Option Plan) : slotCode o = BitVec.ofNat 2 (o.elim 0 (fun p => if p.bound then 2 else 1)) := by
  cases o with
  | none => rfl
  | some p =>
    rw [slotCode, Option.elim_some]
    split <;> rfl

section

variable (s : State)

theorem statusAction_eq : s.statusAction =
    BitVec.ofNat 2 (s.resolver.context.elim 0 (fun ctx => [Action.check, .stage, .apply].idxOf ctx.action)) := by
  cases hctx : s.resolver.context with
  | none => simp only [State.statusAction, hctx, Option.elim_none, BitVec.ofNat_eq_ofNat]
  | some ctx => simp only [State.statusAction, hctx, Option.elim_some, action_code]

theorem statusKind_eq : s.statusKind = BitVec.ofNat 2 (s.engine.transition.elim 0
    (fun t => [TransitionKind.stepped, .rollback, .safeOpen].idxOf t.kind + 1)) := by
  cases ht : s.engine.transition with
  | none => simp only [State.statusKind, ht, Option.elim_none, BitVec.ofNat_eq_ofNat]
  | some t => simp only [State.statusKind, ht, Option.elim_some, transitionKind_code]

theorem statusHot_eq : BitVec.ofBool s.statusHot = BitVec.ofNat 1 (s.engine.transition.elim 0 (fun t => t.hot.toNat)) := by
  cases ht : s.engine.transition with
  | none =>
    have hcold : s.statusHot = false := by simp only [State.statusHot, ht]
    rw [hcold]
    rfl
  | some t => simp only [State.statusHot, ht, Option.elim_some, bits_ofBool]

/-! ### The lines (R115, R191) -/

theorem readyReleased_iff : s.readyReleased = true ↔ s.control.mode = .configure ∨ s.control.mode = .run ∧
    s.engine.phase = .idle ∧ s.gate.latch = false ∧
      ¬ ∃ ctx, s.resolver.context = some ctx ∧ ctx.action = .apply := by
  have hflight : s.applyInFlight = true ↔ ∃ ctx, s.resolver.context = some ctx ∧ ctx.action = .apply := by
    cases hctx : s.resolver.context with
    | none => simp [State.applyInFlight, hctx]
    | some ctx => simp [State.applyInFlight, hctx]
  rw [← hflight]
  cases hmode : s.control.mode with
  | configure => simp [State.readyReleased, hmode]
  | run => simp [State.readyReleased, hmode, and_assoc]
  | lockedOut => simp [State.readyReleased, hmode]

/-- The causes have the bits 0 to 13. -/
theorem exists_cause_bit {i : Nat} (h : i < 14) : ∃ c : Cause, c.bit = i := by
  have hbits : allCauses.map Cause.bit = List.range 14 := rfl
  obtain ⟨c, -, hc⟩ := List.mem_map.mp (hbits ▸ List.mem_range.mpr h)
  exact ⟨c, hc⟩

theorem cause_bit_lt (c : Cause) : c.bit < 14 := by cases c <;> decide

theorem alertLow_iff : s.alertLow = true ↔ s.control.mode = .lockedOut ∨
    ∃ c : Cause, s.isRaised c = true ∧ s.control.params.mask.getLsbD c.bit = false := by
  have hbit : ∀ c : Cause, (s.alerts.pending &&& ~~~s.control.params.mask).getLsbD c.bit =
      (s.isRaised c && !s.control.params.mask.getLsbD c.bit) := fun c => by
    simp [State.isRaised, cause_bit_lt c]
  have hsome : s.alerts.pending &&& ~~~s.control.params.mask ≠ 0 ↔
      ∃ c : Cause, s.isRaised c = true ∧ s.control.params.mask.getLsbD c.bit = false := by
    constructor
    · intro hne
      by_contra hnone
      refine hne (BitVec.eq_of_getLsbD_eq fun i hi => ?_)
      obtain ⟨c, rfl⟩ := exists_cause_bit hi
      rw [hbit]
      simpa using fun hr => not_exists.mp hnone c |> (by simpa [hr] using ·)
    · rintro ⟨c, hraised, hmask⟩ hzero
      have := hbit c
      simp [hzero, hraised, hmask] at this
  rw [State.alertLow, Bool.or_eq_true, decide_eq_true_eq, decide_eq_true_eq, hsome]

/-! ### The words (section 10.7) -/

theorem isPending_eq (i : Nat) : BitVec.ofBool (s.isPending i) =
    BitVec.ofNat 1 (if i ∈ s.engine.pendingOpen ∨ i ∈ s.engine.pendingClose then 1 else 0) := by
  by_cases h : i ∈ s.engine.pendingOpen ∨ i ∈ s.engine.pendingClose
  · have hpending : s.isPending i = true := by simpa [State.isPending] using h
    rw [hpending, if_pos h]
    rfl
  · have hsettled : s.isPending i = false := by simpa [State.isPending] using h
    rw [hsettled, if_neg h]
    rfl

/-- The causes of STATUS word 5 stand in its lowest 14 bits. -/
theorem status_causes : (∀ c : Cause, (s.wordAt .status 5).getLsbD c.bit = s.isRaised c) ∧
    (s.wordAt .status 5).toNat < 2 ^ 14 := by
  have hword : s.wordAt .status 5 = 0#18 ++ s.alerts.pending := rfl
  rw [hword]
  refine ⟨fun c => ?_, ?_⟩
  · rw [BitVec.getLsbD_append, if_pos (cause_bit_lt c)]
    rfl
  · have hlt : s.alerts.pending.toNat < 2 ^ 14 := s.alerts.pending.isLt
    rw [BitVec.toNat_append]
    simpa using hlt

end

/-- Settles O25: the lines by their conditions, and each word from its highest field down. -/
theorem linesAndRecordWordsShowTheState : Obligations.LinesAndRecordWordsShowTheState := by
  intro s i kindOf phaseOf shown r
  have hshown : s.statusPhase = BitVec.ofNat 2 (shown.elim 0 phaseOf) := by
    cases hphase : s.engine.phase with
    | guarding | opening | closing | idle | lockout =>
      simp only [State.statusPhase, shown, hphase]
      rfl
    | suspended =>
      cases hsuspended : s.engine.suspendedPhase with
      | none =>
        simp only [State.statusPhase, shown, hphase, hsuspended]
        rfl
      | some p => simp only [State.statusPhase, shown, hphase, hsuspended, faultPhase_code, Option.elim_some, phaseOf]
  refine ⟨readyReleased_iff s, alertLow_iff s,
    ⟨?status0, ?status1, rfl, rfl, ?status4, (status_causes s).1, (status_causes s).2, fun hslot => ?empty,
      fun p hslot => ?staged, fun hfault => ?noFault, fun f hfault => ?fault⟩,
    ⟨?result0, rfl, ?result2, ?result3, ?result4, ?result5, ?result6, rfl, ?result8⟩, ?holdings, ?actual, ?validation⟩
  case status0 =>
    exact SpellsFrom.laid <| (spells_zero _ 1).field (haltReason_code s.gate.reason) |>.gap
      |>.field (gateMode_code s.gate.mode) |>.gap |>.field (slotCode_eq s.gate.slot) |>.gap |>.field (bits_ofBool s.gate.latch) |>.field (bits_ofBool s.alertLow)
      |>.field (bits_ofBool s.readyReleased) |>.gap |>.field (statusAction_eq s)
      |>.field (bits_ofBool s.resolver.context.isSome) |>.gap |>.field (phase_code s.engine.phase)
      |>.field (bits_toNat s.ring.address) |>.gap |>.field (mode_code s.control.mode)
  case status1 =>
    exact SpellsFrom.laid <| (spells_zero _ 4).field (bits_ofBool s.control.resetRecord.linkLoss)
      |>.field (bits_ofBool s.control.resetRecord.softFrame) |>.field (bits_ofBool s.control.resetRecord.rstn)
      |>.field (bits_ofBool s.control.resetRecord.powerOn) |>.gap |>.field (v := s.wear.notices.length) rfl |>.gap
      |>.field (suspendReason_code s.engine.suspension) |>.gap |>.field (statusHot_eq s) |>.field hshown |>.gap
      |>.field (statusKind_eq s)
  case status4 =>
    exact SpellsFrom.laid <| (spells_zero _ 5).field (v := s.engine.pendingClose.length) rfl |>.gap
      |>.field (v := s.engine.pendingOpen.length) rfl
  case empty => simp only [State.wordAt, State.statusWord, hslot, and_self]
  case staged =>
    refine ⟨?_, ?_, ?_⟩
    · simp only [State.wordAt, State.statusWord, hslot]
    · simp only [State.wordAt, State.statusWord, hslot]
    · have hword : s.wordAt .status 6 = 0#22 ++ p.action.code ++ p.routeSet := by
        simp only [State.wordAt, State.statusWord, hslot]
      rw [hword]
      exact SpellsFrom.laid <| (spells_zero _ 22).field (action_code p.action) |>.field (bits_toNat p.routeSet)
  case noFault =>
    refine ⟨?_, ?_, ?_⟩
    · have hword : s.wordAt .fault 0 = 0#8 ++ BitVec.ofNat 8 s.engine.fault.additional ++ 15#4 ++ 0#12 := by
        simp only [State.wordAt, FaultRecord.word, hfault]
      rw [hword]
      exact SpellsFrom.laid <| (spells_zero _ 8).field rfl |>.field (m := 4) (v := 15) rfl |>.gap
    · simp only [State.wordAt, FaultRecord.word, hfault]
    · have hword : s.wordAt .fault 2 = 0#21 ++ absentField 11 none := by
        simp only [State.wordAt, FaultRecord.word, hfault]
      rw [hword]
      exact SpellsFrom.laid <| (spells_zero _ 21).field (absentField_eq 11 none)
  case fault =>
    refine ⟨?_, ?_, ?_⟩
    · have hword : s.wordAt .fault 0 = 0#8 ++ BitVec.ofNat 8 s.engine.fault.additional ++
          absentField 4 (f.chain.map Fin.val) ++ 0#2 ++ f.transition.code ++ 0#2 ++ f.phase.code ++ 0#2 ++
          f.kind.code := by
        simp only [State.wordAt, FaultRecord.word, hfault]
      rw [hword]
      exact SpellsFrom.laid <| (spells_zero _ 8).field rfl |>.field (absentField_eq 4 (f.chain.map Fin.val)) |>.gap
        |>.field (transitionKind_code f.transition) |>.gap |>.field (faultPhase_code f.phase) |>.gap
        |>.field (faultKind_code f.kind)
    · simp only [State.wordAt, FaultRecord.word, hfault]
    · have hword : s.wordAt .fault 2 = 0#5 ++ BitVec.ofNat 11 f.count ++ 0#5 ++ absentField 11 f.relay := by
        simp only [State.wordAt, FaultRecord.word, hfault]
      rw [hword]
      exact SpellsFrom.laid <| (spells_zero _ 5).field rfl |>.gap |>.field (absentField_eq 11 f.relay)
  case result0 =>
    exact SpellsFrom.laid <| (spells_zero _ 3).field (bits_ofBool r.replaced) |>.gap |>.field (bits_toNat r.effective)
      |>.field (bits_toNat r.routeSet) |>.field (stepMode_code r.mode) |>.field (action_code r.action)
      |>.field (outcome_code r.outcome)
  case result2 =>
    exact SpellsFrom.laid <| (spells_zero _ 1).field (absentField_eq 11 r.relay) |>.field (absentField_eq 12 r.entryIndex)
      |>.field (ownerField_eq r.holder) |>.field (ownerField_eq r.owner)
  case result3 =>
    exact SpellsFrom.laid <| (spells_zero _ 8).field (absentField_eq 8 r.net) |>.field (absentField_eq 8 r.node2)
      |>.field (absentField_eq 8 r.node1)
  case result4 =>
    exact SpellsFrom.laid <| (spells_zero _ 5).field (v := r.closeCount) rfl |>.gap |>.field (v := r.openCount) rfl
  case result5 =>
    exact SpellsFrom.laid <| (spells_zero _ 5).field (v := r.closeWaves) rfl |>.gap |>.field (v := r.openWaves) rfl
  case result6 => exact SpellsFrom.laid <| (spells_zero _ 21).field (v := r.reassignedCount) rfl
  case result8 => exact SpellsFrom.laid <| (spells_zero _ 8).field (bits_toNat r.guarded)
  case holdings => exact SpellsFrom.laid <| (spells_zero _ 28).field (ownerCode_eq (ownerOf s.engine.holdings i))
  case actual =>
    exact SpellsFrom.laid <| (spells_zero _ 27).field (isPending_eq s i) |>.gap
      |>.field (contact_code (Table.get .opened s.engine.actual i))
  case validation =>
    exact SpellsFrom.laid <| (spells_zero _ 2).field (v := s.topology.validation.related) rfl |>.gap
      |>.field (v := s.topology.validation.index) rfl |>.gap |>.field (validation_code s.topology.validation.outcome)

end Sys2Proof.Records
end

section
/-! A READ that is being filled while events fall: what it takes after each of them (R110, R116, R181; logs 4, 6, 12). -/

namespace Sys2Proof.Readings

open Sys2Proof.Machine Sys2Proof.Laws Sys2Proof.Kept Sys2Proof.Traffic Sys2Proof.Triggers Sys2Proof.Confirmations

/-! ### The READ being filled, and the words it takes -/

/-- `s` with `o` as the READ being filled. -/
def during (s : State) (o : Option Reading) : State := { s with ring.reading := o }

theorem during_self {s : State} {r : Reading} (hr : s.ring.reading = some r) : during s (some r) = s := by
  rw [← hr]
  rfl

theorem bystander_during {f : State → State} (hf : Bystander f) (s : State) (o : Option Reading) :
    f (during s o) = during (f s) o := by
  obtain ⟨-, hsent, hpending, hfree⟩ := hf.keeps s
  have h := hf s o s.ring.sent s.pending s.free
  rw [← hsent, ← hpending, ← hfree] at h
  exact (congrArg f (by rw [hsent, hpending, hfree]; rfl)).trans h

theorem wordAt_withCoil (s : State) (k : CoilUnit) (sp : Space) (i : Nat) : (withCoil s k).wordAt sp i = s.wordAt sp i := by
  cases sp <;> rfl

section

variable (r : Reading) (v : State) (m : Nat)

theorem takes_concat (ms : List (State × Nat)) (p : State × Nat) : r.takes (ms ++ [p]) = (r.takes ms).takes [p] :=
  List.foldl_append

theorem takes_one_length : (r.takes [(v, m)]).filled.length = r.filled.length + m := by
  simp [Reading.takes]

/-- What a READ takes depends on the words as they stand alone. -/
theorem takes_of_words {v v' : State} (h : ∀ sp i, v.wordAt sp i = v'.wordAt sp i) :
    r.takes [(v, m)] = r.takes [(v', m)] := by
  simp only [Reading.takes, List.foldl_cons, List.foldl_nil, h]

/-- The READ keeps its bounds. -/
theorem takes_bounds (ms : List (State × Nat)) :
    (r.takes ms).goal = r.goal ∧ (r.takes ms).space = r.space ∧ (r.takes ms).start = r.start := by
  induction ms generalizing r with
  | nil => exact ⟨rfl, rfl, rfl⟩
  | cons p ms ih => exact ih (r.takes [p])

theorem takes_none : r.takes [(v, 0)] = r := by
  simp [Reading.takes]

end

/-- `m` words may be taken next by `q`: no more than it has left, and up to a word before which an event may fall. -/
structure MayTake (q : Reading) (m : Nat) : Prop where
  le : m ≤ q.goal - q.filled.length
  parts : m < q.goal - q.filled.length → MayPart q.space q.start (q.start + q.filled.length + m)

theorem pausesWell_nil (r : Reading) : r.PausesWell [] := ⟨Nat.le_max_right _ _, fun _ hk => absurd hk (Nat.not_lt_zero _)⟩

theorem pausesWell_concat {r : Reading} {ms : List (State × Nat)} {m : Nat} (h : r.PausesWell ms)
    (hm : MayTake (r.takes ms) m) (v : State) : r.PausesWell (ms ++ [(v, m)]) := by
  obtain ⟨hle, hparts⟩ := h
  obtain ⟨hgoal, hspace, hstart⟩ := takes_bounds r ms
  have hmle := hm.le
  have hmparts := hm.parts
  have hlength := takes_one_length (r.takes ms) v m
  rw [hgoal] at hmle hmparts
  rw [hspace, hstart] at hmparts
  rw [← takes_concat] at hlength
  refine ⟨by omega, fun k hk => ?_⟩
  rw [List.length_append, List.length_singleton] at hk
  obtain hk | rfl : k < ms.length ∨ k = ms.length := by omega
  · rw [List.take_append_of_le_length (by omega)]
    exact hparts k hk
  · rw [List.take_of_length_le (by simp)]
    intro q hq
    have hq' : q.filled.length = (r.takes ms).filled.length + m := hlength
    rw [hq', ← Nat.add_assoc]
    exact hmparts (by omega)

/-! ### A READ from event to event -/

/-- `x` is `z` with the READ `q` being filled, or sent on if it has all its words. -/
def Bears (z : State) (q : Reading) (x : State) : Prop :=
  ∃ f, x = during { z with free := f } (some q) ∨ x = State.holding { z with free := f } q

theorem holding_of_lt {z : State} {q : Reading} (h : q.filled.length < q.goal) : z.holding q = during z (some q) :=
  if_neg (Nat.not_le.mpr h)

/-- The READ `q` as it leaves (R181). -/
def leaving (q : Reading) : List Word :=
  sealedWords kindRead q.arg
    { q.env with
      status := 1, reason := 0, filled := BitVec.ofNat 8 q.filled.length,
      payload := q.filled ++ q.env.payload.drop q.filled.length }

theorem holding_of_le {z : State} {q : Reading} (h : q.goal ≤ q.filled.length) :
    z.holding q = (during z none).send (leaving q) :=
  if_pos h

/-- The frames sent before do not matter to a block that does not look at them. -/
theorem bystander_send {f : State → State} (hf : Bystander f) (s : State) (ws : List Word) :
    f (s.send ws) = (f s).send ws := by
  obtain ⟨hreading, hsent, hpending, hfree⟩ := hf.keeps s
  refine (hf s s.ring.reading (s.ring.sent ++ [ws]) s.pending s.free).trans ?_
  rw [← hreading, ← hsent, ← hpending, ← hfree]
  rfl

theorem bystander_freed {f : State → State} (hf : Bystander f) (s : State) (n : Nat) :
    f { s with free := n } = { f s with free := n } := by
  obtain ⟨hreading, hsent, hpending, -⟩ := hf.keeps s
  refine (hf s s.ring.reading s.ring.sent s.pending n).trans ?_
  rw [← hreading, ← hsent, ← hpending]
  rfl

section

variable {z x : State} {q : Reading} {h : State → State}

/-- A READ in progress takes some words after an event. -/
theorem fillOn_during (z : State) (q : Reading) :
    ∃ m, MayTake q m ∧ (during z (some q)).fillOn = State.holding { z with free := z.free + 1 } (q.takes [(z, m)]) := by
  obtain ⟨m, hle, hparts, heq⟩ := fillOn_cases (during z (some q)) q rfl
  refine ⟨m, ⟨hle, hparts⟩, heq.trans ?_⟩
  have hwords : ∀ sp i, State.wordAt { during z (some q) with free := z.free + 1 } sp i = z.wordAt sp i := fun sp i =>
    wordAt_ring z { z.ring with reading := some q } (z.free + 1) sp i rfl
  exact congrArg (State.holding { z with free := z.free + 1 }) (takes_of_words q m hwords)

/-- An event of a block that does not look at the READ has its effect, and then the READ may take some words. -/
theorem Bears.event (hx : Bears z q x) (hh : Bystander h) :
    ∃ m f, MayTake q m ∧ (h x).fillOn = State.holding { h z with free := f } (q.takes [(h z, m)]) := by
  have hprogress : ∀ f, ∃ m f', MayTake q m ∧
      (h (during { z with free := f } (some q))).fillOn = State.holding { h z with free := f' } (q.takes [(h z, m)]) := by
    intro f
    have hmoved : h (during { z with free := f } (some q)) = during { h z with free := f } (some q) := by
      rw [bystander_during hh, bystander_freed hh]
    rw [hmoved]
    obtain ⟨m, hm, heq⟩ := fillOn_during { h z with free := f } q
    refine ⟨m, _, hm, heq.trans (congrArg (State.holding _) (takes_of_words q m fun sp i => ?_))⟩
    exact wordAt_ring (h z) (h z).ring f sp i rfl
  obtain ⟨f, rfl | rfl⟩ := hx
  · exact hprogress f
  · obtain hlt | hle := Nat.lt_or_ge q.filled.length q.goal
    · rw [holding_of_lt hlt]
      exact hprogress f
    · refine ⟨0, f, ⟨Nat.zero_le _, fun hlt => by omega⟩, ?_⟩
      have hmoved : h (State.holding { z with free := f } q) = State.holding { h z with free := f } q := by
        rw [holding_of_le hle, holding_of_le hle, bystander_send hh, bystander_during hh, bystander_freed hh]
      rw [hmoved, takes_none, fillOn_idle _ (by rw [holding_of_le hle]; rfl)]

end

/-! ### Confirmations, one after another -/

/-- The moments after the confirmations of `l`, and how many words are taken at each of them. -/
def moments (s : State) (close : Bool) (l : List Nat) (m : Nat → Nat) : List (State × Nat) :=
  (List.range l.length).map (fun k => (s.confirmEach close (l.take (k + 1)), m k))

/-- How many words are taken after the last of the confirmations does not matter to them. -/
theorem moments_update (s : State) (close : Bool) (l : List Nat) (m : Nat → Nat) (n : Nat) :
    moments s close l (Function.update m l.length n) = moments s close l m :=
  List.map_congr_left fun _ hk => by rw [Function.update_of_ne (Nat.ne_of_lt (List.mem_range.mp hk))]

theorem moments_concat (s : State) (close : Bool) (l : List Nat) (a : Nat) (m : Nat → Nat) :
    moments s close (l ++ [a]) m = moments s close l m ++ [(s.confirmEach close (l ++ [a]), m l.length)] := by
  unfold moments
  rw [List.length_append, List.length_singleton, List.range_succ, List.map_append]
  congr 1
  · refine List.map_congr_left fun k hk => ?_
    rw [List.take_append_of_le_length (List.mem_range.mp hk)]
  · rw [List.map_singleton, List.take_of_length_le (by simp)]

theorem confirmEach_concat (s : State) (close : Bool) (l : List Nat) (a : Nat) :
    s.confirmEach close (l ++ [a]) = (s.confirmEach close l).confirm close a :=
  List.foldl_append

/-- While relays are confirmed one by one, the READ may take words after each of them. -/
theorem Bears.confirmed {s z x : State} {r : Reading} {close : Bool} (hx : Bears z r x)
    (hwords : ∀ l sp i, (s.confirmEach close l).wordAt sp i = (z.confirmEach close l).wordAt sp i) (l : List Nat) :
    ∃ m, r.PausesWell (moments s close l m) ∧ Bears (z.confirmEach close l) (r.takes (moments s close l m))
      (l.foldl (fun t a => (t.confirm close a).fillOn) x) := by
  induction l using List.reverseRecOn with
  | nil => exact ⟨fun _ => 0, pausesWell_nil r, hx⟩
  | append_singleton l a ih =>
    obtain ⟨m, hpauses, hbears⟩ := ih
    obtain ⟨n, f, hn, heq⟩ := hbears.event (bystander_confirm close a)
    refine ⟨Function.update m l.length n, ?_, f, .inr ?_⟩
    · rw [moments_concat, moments_update, Function.update_self]
      exact pausesWell_concat hpauses hn _
    · rw [moments_concat, moments_update, Function.update_self, takes_concat, confirmEach_concat, List.foldl_append]
      refine heq.trans (congrArg (State.holding _) (takes_of_words _ n fun sp i => ?_))
      rw [← confirmEach_concat, hwords]

end Sys2Proof.Readings
end

section
/-! Relays confirmed together: where at most one of them hands on notices, every order has the same effect (R81, R110;
log 6). -/

namespace Sys2Proof.ConfirmOrder

open Sys2Proof.Machine Sys2Proof.Laws Sys2Proof.Kept Sys2Proof.Traffic Sys2Proof.Canonicity

/-! ### Confirmations that hand on no notice -/

/-- The effect on the tables of a confirmation that hands on no notice: the relay in its new state, on no list, and its
count. -/
def settled (s : State) (close : Bool) (r : Nat) (weight : Nat) : State :=
  { s with
    engine.actual := s.engine.actual.put .opened r (if close then .closed else .opened),
    engine.pendingOpen := s.engine.pendingOpen.filter (fun x => x ≠ r),
    engine.pendingClose := s.engine.pendingClose.filter (fun x => x ≠ r),
    wear.records := s.wear.records.put .initial r { s.wearOf r with count := addedWear (s.wearOf r).count weight } }

/-- The weight of a confirmation (R77). -/
def weightOf (s : State) (close : Bool) : Nat := wearWeight s.isHot close s.control.params.hotWeight

/-- A confirmation before its increment. -/
def placed (s : State) (close : Bool) (r : Nat) : State :=
  { s with
    engine.actual := s.engine.actual.put .opened r (if close then .closed else .opened),
    engine.pendingOpen := s.engine.pendingOpen.filter (fun x => x ≠ r),
    engine.pendingClose := s.engine.pendingClose.filter (fun x => x ≠ r) }

theorem confirm_eq (s : State) (close : Bool) (r : Nat) :
    s.confirm close r = (placed s close r).addWear r (weightOf s close) := rfl

theorem wouldNotify_iff (s : State) (close : Bool) (r : Nat) : s.wouldNotify close r = true ↔
    Wearing.crossesAt s r (weightOf s close) warnThreshold ∨ Wearing.crossesAt s r (weightOf s close) retireThreshold := by
  rw [State.wouldNotify, Bool.or_eq_true]
  rfl

theorem confirm_of_quiet {s : State} {close : Bool} {r : Nat} (h : ¬ s.wouldNotify close r = true) :
    s.confirm close r = settled s close r (weightOf s close) := by
  obtain ⟨hwarn, hretire⟩ := not_or.mp ((wouldNotify_iff s close r).not.mp h)
  rw [confirm_eq, Wearing.addWear_eq, Wearing.warned]
  exact (if_neg hretire).trans (if_neg hwarn)

/-! ### A confirmation that hands on no notice may be taken before or after any other -/

theorem put_comm {α : Type} [DecidableEq α] {d : α} {t : Table α} (ht : Table.wf d t) {i j : Nat} (hij : i ≠ j)
    (a b : α) : Table.put d (Table.put d t i a) j b = Table.put d (Table.put d t j b) i a := by
  refine table_ext d _ _ (table_wf_put d _ j b (table_wf_put d t i a ht))
    (table_wf_put d _ i a (table_wf_put d t j b ht)) fun k => ?_
  simp only [table_get_put]
  by_cases hi : k = i
  · subst hi
    rw [if_neg hij, if_pos rfl, if_pos rfl]
  · rw [if_neg hi, if_neg hi]

theorem filter_ne_comm (l : List Nat) (i j : Nat) :
    (l.filter (fun x => x ≠ i)).filter (fun x => x ≠ j) = (l.filter (fun x => x ≠ j)).filter (fun x => x ≠ i) := by
  rw [List.filter_filter, List.filter_filter]
  exact List.filter_congr fun x _ => Bool.and_comm _ _

section

variable {s : State} {close : Bool} {r r' : Nat} (hne : r ≠ r') (w : Nat)
include hne

theorem settled_wearOf : (settled s close r' w).wearOf r = s.wearOf r :=
  table_get_put_other WearRecord.initial s.wear.records r' r _ hne

theorem settled_placed (h : Table.wf Contact.opened s.engine.actual) :
    placed (settled s close r' w) close r = settled (placed s close r) close r' w := by
  unfold placed settled
  simp only [put_comm h hne.symm, filter_ne_comm _ r' r]
  rfl

theorem settled_setWear (h : Table.wf WearRecord.initial s.wear.records) (x : WearRecord) :
    (settled s close r' w).setWear r x = settled (s.setWear r x) close r' w := by
  have hkeep : (s.setWear r x).wearOf r' = s.wearOf r' :=
    table_get_put_other WearRecord.initial s.wear.records r r' x hne.symm
  unfold settled State.setWear at *
  simp only [hkeep, put_comm h hne.symm]

omit hne in
theorem settled_handNotice (s : State) (n : Notice) :
    (settled s close r' w).handNotice n = settled (s.handNotice n) close r' w := by
  unfold State.handNotice
  change (if s.wear.notices.length < 16 then _ else _) = _
  split
  · rfl
  · rfl

theorem settled_crossesAt (weight : Nat) (threshold : ClassEntry → Nat) :
    Wearing.crossesAt (settled s close r' w) r weight threshold ↔ Wearing.crossesAt s r weight threshold := by
  rw [Wearing.crossesAt, settled_wearOf hne]
  rfl

theorem settled_crossing (weight : Nat) (k : NoticeKind) :
    Wearing.crossing (settled s close r' w) r weight k = Wearing.crossing s r weight k := by
  rw [Wearing.crossing, settled_wearOf hne]
  rfl

theorem settled_addWear (h : Table.wf WearRecord.initial s.wear.records) (weight : Nat) :
    (settled s close r' w).addWear r weight = settled (s.addWear r weight) close r' w := by
  have hcounted := table_wf_put WearRecord.initial s.wear.records r
    { s.wearOf r with count := addedWear (s.wearOf r).count weight } h
  have hwarned : Wearing.warned (settled s close r' w) r weight = settled (Wearing.warned s r weight) close r' w := by
    simp only [Wearing.warned, settled_crossesAt hne w, settled_crossing hne w, settled_wearOf hne w,
      settled_setWear hne w h, settled_handNotice w]
    split
    · rfl
    · rfl
  have hwf : Table.wf WearRecord.initial (Wearing.warned s r weight).wear.records := by
    unfold Wearing.warned State.handNotice
    dsimp only
    repeat' split
    all_goals exact hcounted
  rw [Wearing.addWear_eq, Wearing.addWear_eq, hwarned]
  simp only [settled_crossesAt hne w, settled_wearOf hne w, settled_crossing hne w, settled_setWear hne w hwf,
    settled_handNotice w]
  split
  · rfl
  · rfl

theorem confirm_settled (h : s.Canonical) :
    (settled s close r' w).confirm close r = settled (s.confirm close r) close r' w := by
  rw [confirm_eq, settled_placed hne w h.actual]
  exact settled_addWear hne w (s := placed s close r) h.wear _

end

theorem confirm_weightOf (s : State) (close : Bool) (r : Nat) : weightOf (s.confirm close r) close = weightOf s close := by
  rw [confirm_frame]
  rfl

/-- The confirmation of one relay does not change whether another would hand on a notice. -/
theorem confirm_wouldNotify {s : State} {close : Bool} {r r' : Nat} (hne : r' ≠ r) :
    (s.confirm close r).wouldNotify close r' = s.wouldNotify close r' := by
  have hwear : (s.confirm close r).wearOf r' = s.wearOf r' := by
    rw [confirm_eq, Wearing.addWear_wearOf, if_neg hne]
    rfl
  have hclass : (s.confirm close r).classOf r' = s.classOf r' := by
    rw [confirm_frame]
    rfl
  rw [Bool.eq_iff_iff, wouldNotify_iff, wouldNotify_iff, confirm_weightOf]
  simp only [Wearing.crossesAt, hwear, hclass]

/-- Two relays of which one hands on no notice may be confirmed in either order. -/
theorem confirm_comm {s : State} (h : s.Canonical) (close : Bool) {r r' : Nat} (hne : r ≠ r')
    (hquiet : ¬ s.wouldNotify close r' = true) :
    (s.confirm close r').confirm close r = (s.confirm close r).confirm close r' := by
  rw [confirm_of_quiet hquiet, confirm_settled hne _ h,
    confirm_of_quiet (s := s.confirm close r) (by rwa [confirm_wouldNotify hne.symm]), confirm_weightOf]

/-! ### Every order has the same effect (log 6) -/

/-- At most one relay of the list would hand on a notice. -/
def FewNotices (s : State) (close : Bool) (l : List Nat) : Prop :=
  (l.filter (fun r => s.wouldNotify close r)).length ≤ 1

theorem fewNotices_of_cons {s : State} {close : Bool} {r : Nat} {l : List Nat} (hnodup : (r :: l).Nodup)
    (h : FewNotices s close (r :: l)) : FewNotices (s.confirm close r) close l := by
  have hsame : l.filter (fun x => (s.confirm close r).wouldNotify close x) = l.filter (fun x => s.wouldNotify close x) :=
    List.filter_congr fun x hx => confirm_wouldNotify fun heq => (List.nodup_cons.mp hnodup).1 (heq ▸ hx)
  unfold FewNotices at *
  rw [hsame]
  exact Nat.le_trans (((List.sublist_cons_self r l).filter _).length_le) h

theorem confirmEach_cons (s : State) (close : Bool) (r : Nat) (l : List Nat) :
    s.confirmEach close (r :: l) = (s.confirm close r).confirmEach close l := rfl

theorem confirmEach_of_perm {close : Bool} {l l' : List Nat} (hperm : l.Perm l') {s : State} (h : s.Canonical)
    (hnodup : l.Nodup) (hfew : FewNotices s close l) : s.confirmEach close l = s.confirmEach close l' := by
  induction hperm generalizing s with
  | nil => rfl
  | cons r _ ih =>
    exact ih (canonical_confirm h close r) (List.nodup_cons.mp hnodup).2 (fewNotices_of_cons hnodup hfew)
  | swap r r' l =>
    have hne : r' ≠ r := fun heq => (List.nodup_cons.mp hnodup).1 (heq ▸ List.mem_cons_self)
    have hswap : (s.confirm close r').confirm close r = (s.confirm close r).confirm close r' := by
      by_cases hnotify : s.wouldNotify close r' = true
      · refine (confirm_comm h close hne fun hboth => ?_).symm
        rw [FewNotices, List.filter_cons_of_pos hnotify, List.filter_cons_of_pos hboth] at hfew
        simp at hfew
      · exact confirm_comm h close hne.symm hnotify
    simp only [confirmEach_cons, hswap]
  | trans h₁ _ ih₁ ih₂ =>
    refine (ih₁ h hnodup hfew).trans (ih₂ h (h₁.nodup_iff.mp hnodup) ?_)
    rwa [FewNotices, ← (h₁.filter _).length_eq]

/-- Whether or not a READ is being filled, the relays confirmed together end in the same state. -/
theorem confirmEach_confirmOrder {s u : State} (h : s.Canonical) (close : Bool) {rs : List Nat} (hnodup : rs.Nodup)
    (hidle : s.ring.reading = none) (hbusy : u.ring.reading ≠ none) (hfree : u.free = s.free) :
    s.confirmEach close (s.confirmOrder close rs) = s.confirmEach close (u.confirmOrder close rs) := by
  have horder : u.confirmOrder close rs = rs.foldl (fun l r => insertConfirm s.free r l) [] := by
    rw [State.confirmOrder, if_neg fun hboth => hbusy hboth.2, hfree]
  by_cases hfew : FewNotices s close rs
  · have hmine : s.confirmOrder close rs = rs := if_pos ⟨hfew, hidle⟩
    rw [hmine]
    exact confirmEach_of_perm (confirmOrder_perm u close rs).symm h hnodup hfew
  · have hmine : s.confirmOrder close rs = rs.foldl (fun l r => insertConfirm s.free r l) [] :=
      if_neg fun hboth => hfew hboth.1
    rw [hmine, horder]

end Sys2Proof.ConfirmOrder
end

section
/-! What each event does to a READ that is being filled, and the frame that finds it finished (R110, R116, R169, R181; logs 4,
6, 12, 14). -/

namespace Sys2Proof.FilledReads

open Sys2Proof.Machine Sys2Proof.Laws Sys2Proof.Kept Sys2Proof.Traffic Sys2Proof.Triggers Sys2Proof.CoilChains
  Sys2Proof.Confirmations Sys2Proof.SenseEchoes Sys2Proof.Readings Sys2Proof.ConfirmOrder

/-! ### Events after which a READ may take words once (R181; log 12) -/

/-- The event `c` has its effect, and the READ `r` then takes some more words. -/
def FillsAfter (s : State) (r : Reading) (c : Instr) : Prop :=
  ∀ u, exec c (during s none) = .next u →
    ∃ m, m ≤ r.goal - r.filled.length ∧
      (m < r.goal - r.filled.length → MayPart r.space r.start (r.start + r.filled.length + m)) ∧
      exec c s = .next (State.tookWords { u with free := u.free + 1 } r m)

/-- The relays in `rs` are confirmed one after another in the event `c`, and the READ `r` may take words after each of them
and at the end. -/
def FillsAmong (s : State) (r : Reading) (c : Instr) (close : Bool) (rs : List Nat) : Prop :=
  ∀ u, exec c (during s none) = .next u →
    ∃ (l : List Nat) (m : Nat → Nat) (f : Nat), l.Perm rs ∧
      r.PausesWell (moments s close l m ++ [(u, m l.length)]) ∧
      exec c s = .next (State.holding { u with free := f } (r.takes (moments s close l m ++ [(u, m l.length)])))

section

variable {s : State} {r : Reading} {c : Instr}

theorem tookWords_during (t : State) (o : Option Reading) (n : Nat) (r : Reading) (m : Nat) :
    State.tookWords { during t o with free := n } r m = State.holding { t with free := n } (r.takes [(t, m)]) := by
  have hwords : ∀ sp i, State.wordAt { during t o with free := n } sp i = t.wordAt sp i := fun sp i =>
    wordAt_ring t { t.ring with reading := o } n sp i rfl
  exact congrArg (State.holding { t with free := n }) (takes_of_words r m hwords)

theorem fillsAfter_of_exec (hr : s.ring.reading = some r) {t : State}
    (hexec : ∀ o, exec c (during s o) = .next (during t o).fillOn) : FillsAfter s r c := by
  intro u hu
  have hu' : u = during t none := by
    rw [hexec none, fillOn_idle _ rfl] at hu
    exact (Host.Outcome.next.inj hu).symm
  obtain ⟨m, hm, hfill⟩ := fillOn_during t r
  refine ⟨m, hm.le, hm.parts, ?_⟩
  have hbusy := hexec (some r)
  rw [during_self hr, hfill] at hbusy
  rw [hbusy, hu', tookWords_during]
  rfl

theorem fillsAfter_of_bystander (hr : s.ring.reading = some r) {f : State → State} (hf : Bystander f)
    (hexec : ∀ o, exec c (during s o) = .next (f (during s o)).fillOn) : FillsAfter s r c :=
  fillsAfter_of_exec hr fun o => (hexec o).trans (by rw [bystander_during hf])

theorem fillsAfter_of_idle (hr : s.ring.reading = some r)
    (hexec : ∀ o, exec c (during s o) = .next (during s o).fillOn) : FillsAfter s r c :=
  fillsAfter_of_exec hr hexec

/-! ### Events that confirm relays (R110; log 6) -/

theorem bystander_confirmEach (close : Bool) (l : List Nat) : Bystander (fun s => s.confirmEach close l) :=
  bystander_foldl (bystander_confirm close) l

/-- Without a READ, the confirmations of an event and what follows them, in the order that they have with one. -/
theorem confirmAll_during_none (hr : s.ring.reading = some r) (hcan : s.Canonical) (k : CoilUnit) (close : Bool)
    {rs : List Nat} (hnodup : rs.Nodup) {g : State → State} (hg : Bystander g) :
    (g ((withCoil (during s none) k).confirmAll close rs)).fillOn =
      { g ((withCoil (during s none) k).confirmEach close (s.confirmOrder close rs)) with free := s.free + 1 } := by
  have horder : (during s none).confirmEach close ((during s none).confirmOrder close rs) =
      (during s none).confirmEach close (s.confirmOrder close rs) :=
    confirmEach_confirmOrder (s := during s none) { hcan with } close hnodup rfl (by rw [hr]; nofun) rfl
  have hfreed := bystander_freed (bystander_confirmEach close ((during s none).confirmOrder close rs))
    (withCoil (during s none) k) (s.free + 1)
  have hconfirm : (withCoil (during s none) k).confirmAll close rs =
      { (withCoil (during s none) k).confirmEach close (s.confirmOrder close rs) with free := s.free + 1 } := by
    refine (confirmAll_idle _ _ _ rfl).trans (hfreed.trans ?_)
    rw [confirmEach_withCoil, horder, ← confirmEach_withCoil]
  rw [hconfirm, bystander_freed hg]
  refine fillOn_idle _ ?_
  exact (hg.reading _).trans ((bystander_confirmEach close _).reading _)

/-- The confirmations of an event with a READ being filled and without one. -/
theorem fillsAmong_of_confirmAll (hr : s.ring.reading = some r) (hcan : s.Canonical) (k : CoilUnit) (close : Bool)
    {rs : List Nat} (hnodup : rs.Nodup) {g : State → State} (hg : Bystander g)
    (hexec : ∀ o, exec c (during s o) = .next (g ((withCoil (during s o) k).confirmAll close rs)).fillOn) :
    FillsAmong s r c close rs := by
  intro u hu
  obtain rfl : _ = u := Host.Outcome.next.inj ((hexec none).symm.trans hu)
  rw [confirmAll_during_none hr hcan k close hnodup hg]
  have hwords : ∀ l sp i, (s.confirmEach close l).wordAt sp i =
      ((withCoil (during s none) k).confirmEach close l).wordAt sp i := fun l sp i => by
    rw [confirmEach_withCoil, wordAt_withCoil, bystander_during (bystander_confirmEach close l)]
    exact (wordAt_ring (s.confirmEach close l) _ (s.confirmEach close l).free sp i rfl).symm
  have hstart : Bears (withCoil (during s none) k) r { withCoil s k with free := s.free + 1 } := by
    refine ⟨s.free + 1, .inl ?_⟩
    rw [← hr]
    rfl
  obtain ⟨m, hpauses, hbears⟩ := hstart.confirmed hwords (s.confirmOrder close rs)
  obtain ⟨n, f, hn, hend⟩ := hbears.event hg
  have hbusy := hexec (some r)
  rw [during_self hr] at hbusy
  refine ⟨s.confirmOrder close rs, Function.update m (s.confirmOrder close rs).length n, f, confirmOrder_perm s close rs,
    ?_, ?_⟩
  · rw [moments_update, Function.update_self]
    exact pausesWell_concat hpauses hn _
  · rw [moments_update, Function.update_self, takes_concat]
    refine hbusy.trans (congrArg Host.Outcome.next (hend.trans (congrArg (State.holding _) ?_)))
    exact takes_of_words _ n fun sp i => (wordAt_ring _ (g _).ring (s.free + 1) sp i rfl).symm

end

end Sys2Proof.FilledReads
end

section
/-! The events of the other blocks while a READ is being filled, one by one (R110, R116, R169, R181; logs 4, 6, 12, 14). -/

namespace Sys2Proof.ReadEvents

open Sys2Proof.Machine Sys2Proof.Laws Sys2Proof.Kept Sys2Proof.Traffic Sys2Proof.Triggers Sys2Proof.CoilChains
  Sys2Proof.Confirmations Sys2Proof.SenseEchoes Sys2Proof.Readings Sys2Proof.FilledReads

section

variable {s : State} {r : Reading}

/-- A row that looks at the state, but not at the READ, to choose its effect. -/
theorem fillsAfter_of_row (hr : s.ring.reading = some r) {c : Instr} {row : State → State}
    (hexec : ∀ u, exec c u = .next (row u).fillOn) (hrow : ∀ o, row (during s o) = during (row s) o) : FillsAfter s r c :=
  fillsAfter_of_exec hr fun o => (hexec _).trans (by rw [hrow])

/-! ### Events that confirm no relay -/

theorem fillsAfter_qackHigh (hr : s.ring.reading = some r) : FillsAfter s r .qackHigh := by
  refine fillsAfter_of_row hr (fun _ => rfl) fun o => ?_
  change (if s.engine.phase = .guarding then _ else _) = _
  split
  · exact bystander_during bystander_advance s o
  · rfl

theorem fillsAfter_guardTimeout (hr : s.ring.reading = some r) : FillsAfter s r .guardTimeout := by
  refine fillsAfter_of_row hr (fun _ => rfl) fun o => ?_
  have hsame : (during s o).engine = s.engine := rfl
  simp only [hsame]
  split
  next t g _ _ _ =>
    split
    · exact bystander_during (bystander_bypassGuard t) s o
    · exact bystander_during ((bystander_suspend .fault).comp (bystander_fault .guardTimeout .guard none [])) s o
  next => rfl

theorem fillsAfter_resolutionComplete (hr : s.ring.reading = some r) : FillsAfter s r .resolutionComplete := by
  refine fillsAfter_of_row hr (fun _ => rfl) fun o => ?_
  have hsame : (during s o).resolver = s.resolver := rfl
  simp only [hsame]
  split
  next ctx _ => exact bystander_during (bystander_completeResolution ctx) s o
  next => rfl

theorem fillsAfter_shiftComplete (hr : s.ring.reading = some r) (k : Fin 8) : FillsAfter s r (.shiftComplete k) := by
  refine fillsAfter_of_row hr (fun _ => rfl) fun o => ?_
  have hsame : (during s o).exchange k = s.exchange k := rfl
  simp only [hsame]
  split
  all_goals rfl

theorem fillsAfter_senseIntervalEnd (hr : s.ring.reading = some r) (k : Fin 8) :
    FillsAfter s r (.senseIntervalEnd k) := by
  refine fillsAfter_of_row hr (fun _ => rfl) fun o => ?_
  have hsame : (during s o).exchange k = s.exchange k := rfl
  have hreached : (during s o).deadlineReached = s.deadlineReached := rfl
  simp only [hsame, hreached]
  split
  next =>
    split
    · rfl
    · rfl
  all_goals rfl

theorem fillsAfter_rstnLow (hr : s.ring.reading = some r) : FillsAfter s r .rstnLow := by
  refine fillsAfter_of_row hr (fun _ => rfl) fun o => ?_
  have hsame : (during s o).rstnSource = s.rstnSource ∧ (during s o).linkLostInReset = s.linkLostInReset := ⟨rfl, rfl⟩
  rw [hsame.1, hsame.2]
  cases s.rstnSource with
  | powerOn | rstn | softFrame | linkLoss => rfl

theorem fillsAfter_symbolLockLost (hr : s.ring.reading = some r) : FillsAfter s r .symbolLockLost := by
  refine fillsAfter_of_row hr (fun _ => rfl) fun o => ?_
  change (if s.control.lockLost then _ else _) = _
  split
  · rfl
  · rfl

theorem fillsAfter_linkLoss (hr : s.ring.reading = some r) : FillsAfter s r .linkLoss := by
  refine fillsAfter_of_row hr (fun _ => rfl) fun o => ?_
  have hsame : (during s o).control = s.control := rfl
  simp only [hsame]
  split
  · split
    · rfl
    · rfl
  · rfl

theorem fillsAfter_resetEnd (hr : s.ring.reading = some r) (straps : BitVec 4) : FillsAfter s r (.resetEnd straps) := by
  refine fillsAfter_of_row hr (fun _ => rfl) fun o => ?_
  have hsame : (during s o).control = s.control := rfl
  simp only [hsame]
  split
  next run _ =>
    change (if s.mayEndReset run then _ else _) = _
    split
    · exact bystander_during (bystander_finishReset run straps) s o
    · rfl
  next => rfl

/-- An event that confirms no relay, and is no echo of a write, is followed by one filling. -/
theorem fillsAfter_of_event (hr : s.ring.reading = some r) {c : Instr} (hevent : Instr.arrivingWords c = none)
    (hwait : c ≠ .timedWaitEnd) (hsense : ∀ k echo made, c ≠ .senseEcho k echo made)
    (hwrite : ∀ k echo, c ≠ .writeEcho k echo ∧ c ≠ .noEcho k) : FillsAfter s r c := by
  cases c with
  | trigEdge => exact fillsAfter_of_bystander hr bystander_trigger fun _ => rfl
  | qackHigh => exact fillsAfter_qackHigh hr
  | guardTimeout => exact fillsAfter_guardTimeout hr
  | resolutionComplete => exact fillsAfter_resolutionComplete hr
  | shiftComplete k => exact fillsAfter_shiftComplete hr k
  | senseIntervalEnd k => exact fillsAfter_senseIntervalEnd hr k
  | senseDeadline => exact fillsAfter_of_bystander hr (bystander_senseProgress true) fun _ => rfl
  | staleEcho k echo => exact fillsAfter_of_idle hr fun _ => rfl
  | powerOn => exact fillsAfter_of_bystander hr (bystander_beginReset .powerOn false) fun _ => rfl
  | rstnLow => exact fillsAfter_rstnLow hr
  | rstnHigh => exact fillsAfter_of_row hr (fun _ => rfl) fun _ => rfl
  | symbolLockLost => exact fillsAfter_symbolLockLost hr
  | symbolLockReturn => exact fillsAfter_of_row hr (fun _ => rfl) fun _ => rfl
  | linkLoss => exact fillsAfter_linkLoss hr
  | resetEnd straps => exact fillsAfter_resetEnd hr straps
  | timedWaitEnd => exact absurd rfl hwait
  | senseEcho k echo made => exact absurd rfl (hsense k echo made)
  | writeEcho k echo => exact absurd rfl (hwrite k echo).1
  | noEcho k => exact absurd rfl (hwrite k 0).2
  | _ => cases hevent

end

end Sys2Proof.ReadEvents
end

section
/-! Echoes and the end of the timed wait while a READ is being filled, and the frame that finds it finished (R88, R90, R109,
R110, R169, R181; logs 4, 6, 12, 14). -/

namespace Sys2Proof.ReadEchoes

open Sys2Proof.Machine Sys2Proof.Laws Sys2Proof.Kept Sys2Proof.Traffic Sys2Proof.Triggers Sys2Proof.CoilChains
  Sys2Proof.Confirmations Sys2Proof.SenseEchoes Sys2Proof.Readings Sys2Proof.FilledReads Sys2Proof.ReadEvents

section

variable {s : State} {r : Reading} {k : Fin 8} {w : Wave}

/-! ### Rows whose cause is not in effect -/

theorem exec_timedWaitEnd_of_unwaiting (h : ∀ w, s.coil.wave = some w → w.stage ≠ .timedWait) :
    exec .timedWaitEnd s = .next s.fillOn := by
  change execTimedWaitEnd s = _
  unfold execTimedWaitEnd
  split
  next w hw =>
    split
    next hstage => exact absurd hstage (h w hw)
    all_goals rfl
  next => rfl

theorem exec_writeEcho_of_unawaited (h : ∀ n, s.exchange k ≠ .writing n .echoWait) (echo : Image) :
    exec (.writeEcho k echo) s = .next s.fillOn := by
  change execWriteEcho k echo s = _
  unfold execWriteEcho
  split
  next n hx => exact absurd hx (h n)
  all_goals rfl

theorem exec_senseEcho_of_unawaited (h : ∀ n, s.exchange k ≠ .sensing n .echoWait) (echo made : Image) :
    exec (.senseEcho k echo made) s = .next s.fillOn := by
  change execSenseEcho k echo made s = _
  unfold execSenseEcho
  split
  next n hx => exact absurd hx (h n)
  all_goals rfl

theorem exec_noEcho_of_unawaited (hwrite : ∀ n, s.exchange k ≠ .writing n .echoWait)
    (hsense : ∀ n, s.exchange k ≠ .sensing n .echoWait) : exec (.noEcho k) s = .next s.fillOn := by
  change execNoEcho k s = _
  unfold execNoEcho
  split
  next n hx => exact absurd hx (hwrite n)
  next n hx => exact absurd hx (hsense n)
  all_goals rfl

/-! ### Sense echoes and the timed wait -/

theorem senseCompletes_of_waveless (h : s.coil.wave = none) (k : Fin 8) (made : Image) : s.senseCompletes k made = s := by
  simp only [State.senseCompletes, h]

theorem fillsAfter_senseEcho (hr : s.ring.reading = some r) {echo made : Image}
    (h : s.coil.wave = none ∨ (∀ n, s.exchange k ≠ .sensing n .echoWait) ∨ echo ≠ s.coil.images.get 0 k) :
    FillsAfter s r (.senseEcho k echo made) := by
  by_cases hawaited : ∃ n, s.exchange k = .sensing n .echoWait
  · obtain ⟨n, hx⟩ := hawaited
    by_cases hecho : echo = s.coil.images.get 0 k
    · have hw : s.coil.wave = none := h.resolve_right fun hor => hor.elim (fun hnone => hnone n hx) fun hne => hne hecho
      refine fillsAfter_of_idle hr fun o => ?_
      rw [exec_senseEcho_matched (s := during s o) hx hecho, senseCompletes_of_waveless (s := during s o) hw]
    · exact fillsAfter_of_bystander hr (bystander_senseAttemptFails k n) fun o =>
        exec_senseEcho_mismatched (s := during s o) hx hecho made
  · exact fillsAfter_of_idle hr fun o =>
      exec_senseEcho_of_unawaited (s := during s o) (fun n hx => hawaited ⟨n, hx⟩) echo made

theorem fillsAmong_timedWaitEnd (hr : s.ring.reading = some r) (hcan : s.Canonical) (hpending : s.PendingAgrees)
    (hw : s.coil.wave = some w) (hstage : w.stage = .timedWait) :
    FillsAmong s r .timedWaitEnd w.close (Rules.latchedOf w .timed) :=
  fillsAmong_of_confirmAll hr hcan (waitedCoil s w) w.close (latchedOf_nodup (hpending.waveOrder w hw) .timed)
    (bystander_senseProgress false) fun o => by
      rw [exec_timedWaitEnd (s := during s o) hw hstage, Rules.endTimedWait_eq]
      rfl

theorem fillsAmong_senseEcho (hr : s.ring.reading = some r) (hcan : s.Canonical) (hpending : s.PendingAgrees)
    (hw : s.coil.wave = some w) {n : Nat} (hx : s.exchange k = .sensing n .echoWait) {echo : Image}
    (hecho : echo = s.coil.images.get 0 k) (made : Image) :
    FillsAmong s r (.senseEcho k echo made) w.close (Rules.matchingOf w k made) := by
  have hnodup : (Rules.matchingOf w k made).Nodup := by
    rw [matchingOf_eq]
    exact nodup_of_ascending ((hpending.waveOrder w hw).sublist (List.filter_sublist.map _))
  refine fillsAmong_of_confirmAll hr hcan { s.coil with wave := some (Rules.sensedWave w k made) } w.close hnodup
    ((bystander_senseProgress false).comp
      (bystander_setExchange k (sensedExchange (Rules.sensedWave w k made) k))) fun o => ?_
  rw [exec_senseEcho_matched (s := during s o) hx hecho, Rules.senseCompletes_eq (s := during s o) k made hw]
  rfl

/-! ### Echoes of writes (R88, R109; log 14) -/

/-- `f` changes nothing but the wave, its chains, the states of relays and the fault record, on the way to the look at the
wave that ends an exchange. -/
structure Prepares (s : State) (w : Wave) (f : State → State) : Prop where
  apart : Bystander f
  wave : ∃ w', (f s).coil.wave = some w' ∧ w'.time = w.time
  frame : f s = { s with coil := (f s).coil, engine.actual := (f s).engine.actual, engine.fault := (f s).engine.fault }
  canonical : s.Canonical → (f s).Canonical
  pending : s.PendingAgrees → (f s).PendingAgrees

theorem prepares_latched (hw : s.coil.wave = some w) (hx : s.exchange k ≠ .idle) :
    Prepares s w (fun u => chainLatched u w k) where
  apart _ _ _ _ _ := rfl
  wave := ⟨_, rfl, rfl⟩
  frame := rfl
  canonical h :=
    (Canonicity.rules fun _ => True).exchange k .latched trivial
      ((Canonicity.rules fun _ => True).rewaves trivial h hw
        (refines_mark .latched (unconfirmed_withStatus w k (st := .writing) (by decide)).status)) hx
  pending h :=
    { Pending.pending_rewaved h hw (refines_mark .latched (unconfirmed_withStatus w k (st := .writing) (by decide)).status)
      with }

theorem chainFails_frame (s : State) (w : Wave) (k : Fin 8) (rs : List Nat) : s.chainFails w k rs =
    { s with
      coil := (s.chainFails w k rs).coil, engine.actual := (s.chainFails w k rs).engine.actual,
      engine.fault := (s.chainFails w k rs).engine.fault } := by
  unfold State.chainFails State.fault
  split <;> rfl

theorem pending_chainFails (h : s.PendingAgrees) (hw : s.coil.wave = some w) {rs : List Nat} (hrs : Unconfirmed w rs) :
    (s.chainFails w k rs).PendingAgrees := by
  have hmark := Pending.pending_markUnknown h hw hrs
  have hrefines : Refines w { w.mark rs .chainFailed with failed := true } :=
    (refines_mark .chainFailed hrs.status).congr rfl rfl
  have hmarked : (State.markUnknown
      { s with
        coil.wave := some { w.mark rs .chainFailed with failed := true },
        coil.exchanges := s.coil.exchanges.put .idle k.val .failed } rs).PendingAgrees :=
    { Pending.pending_rewaved hmark hw hrefines with }
  exact Pending.pending_fault hmarked _ _ _ _

theorem prepares_failed (hw : s.coil.wave = some w) (hx : s.exchange k ≠ .idle) :
    Prepares s w (fun u => u.chainFails w k (w.withStatus k .writing)) where
  apart := bystander_chainFails w k _
  wave := ⟨_, Rules.chainFails_wave s w k _, rfl⟩
  frame := chainFails_frame s w k _
  canonical h := (Canonicity.rules fun _ => True).chainFails h hw hx (unconfirmed_withStatus w k (by decide))
  pending h := pending_chainFails h hw (unconfirmed_withStatus w k (by decide))

/-- What the end of a write exchange can do: a step of its own, or a look at the wave. -/
inductive WriteRow (s : State) (c : Instr) : Prop
  | plain (f : State → State) : Bystander f → (∀ o, exec c (during s o) = .next (f (during s o)).fillOn) → WriteRow s c
  | looks (w : Wave) (f : State → State) : s.coil.wave = some w → Prepares s w f →
      (∀ o, exec c (during s o) = .next (f (during s o)).writeProgress.fillOn) → WriteRow s c

theorem bystander_self : Bystander (fun s => s) := fun _ _ _ _ _ => rfl

/-- A write attempt that fails begins the next, or fails the chain. -/
theorem writeRow_of_fails {c : Instr} {n : Nat} (hx : s.exchange k ≠ .idle)
    (hexec : ∀ o, exec c (during s o) = .next ((during s o).writeAttemptFails k n).fillOn) : WriteRow s c := by
  by_cases hn : n < 3
  · refine .plain _ (bystander_setExchange k (.writing (n + 1) .shifting)) fun o => ?_
    rw [hexec, writeAttemptFails_of_lt _ hn]
  · cases hw : s.coil.wave with
    | none =>
      refine .plain _ bystander_self fun o => ?_
      rw [hexec]
      simp only [State.writeAttemptFails, if_neg hn, show (during s o).coil.wave = none from hw]
    | some w =>
      refine .looks w _ hw (prepares_failed hw hx) fun o => ?_
      rw [hexec, writeAttemptFails_of_three_le (s := during s o) hw k (Nat.not_lt.mp hn)]

theorem writeRow_writeEcho (s : State) (k : Fin 8) (echo : Image) : WriteRow s (.writeEcho k echo) := by
  by_cases hawaited : ∃ n, s.exchange k = .writing n .echoWait
  · obtain ⟨n, hx⟩ := hawaited
    have hbusy : s.exchange k ≠ .idle := by rw [hx]; nofun
    by_cases hecho : echo = s.coil.images.get 0 k
    · cases hw : s.coil.wave with
      | none =>
        refine .plain _ bystander_self fun o => ?_
        rw [exec_writeEcho_matched (s := during s o) hx hecho]
        simp only [State.chainLatches, show (during s o).coil.wave = none from hw]
      | some w =>
        refine .looks w _ hw (prepares_latched hw hbusy) fun o => ?_
        rw [exec_writeEcho_matched (s := during s o) hx hecho, chainLatches_eq (s := during s o) hw]
    · exact writeRow_of_fails hbusy fun o => exec_writeEcho_mismatched (s := during s o) hx hecho
  · exact .plain _ bystander_self fun o =>
      exec_writeEcho_of_unawaited (s := during s o) (fun n hx => hawaited ⟨n, hx⟩) echo

theorem writeRow_noEcho (s : State) (k : Fin 8) : WriteRow s (.noEcho k) := by
  by_cases hwrite : ∃ n, s.exchange k = .writing n .echoWait
  · obtain ⟨n, hx⟩ := hwrite
    exact writeRow_of_fails (by rw [hx]; nofun) fun o => exec_noEcho_writing (s := during s o) hx
  · by_cases hsense : ∃ n, s.exchange k = .sensing n .echoWait
    · obtain ⟨n, hx⟩ := hsense
      exact .plain _ (bystander_senseAttemptFails k n) fun o => exec_noEcho_sensing (s := during s o) hx
    · exact .plain _ bystander_self fun o =>
        exec_noEcho_of_unawaited (s := during s o) (fun n hx => hwrite ⟨n, hx⟩) fun n hx => hsense ⟨n, hx⟩

theorem writeProgress_during {u : State} (h : ∀ w, ¬ SkipsWait u w) (o : Option Reading) :
    (during u o).writeProgress = during u.writeProgress o := by
  have hself := writeProgress_carrying h u.ring.reading u.ring.sent u.pending u.free
  have hother := writeProgress_carrying h o u.ring.sent u.pending u.free
  rw [carrying_self] at hself
  refine hother.trans ?_
  rw [hself]
  rfl

/-- An echo of a write that ends no timed wait is followed by one filling. -/
theorem WriteRow.fillsAfter {c : Instr} (h : WriteRow s c) (hr : s.ring.reading = some r)
    (htime : ∀ w, s.coil.wave = some w → 0 < w.time) : FillsAfter s r c := by
  cases h with
  | plain f hf hexec => exact fillsAfter_of_bystander hr hf hexec
  | looks w f hw hf hexec =>
    obtain ⟨w', hw', htime'⟩ := hf.wave
    have hwaits : ∀ v, ¬ SkipsWait (f s) v := fun v hskip => by
      obtain rfl : w' = v := Option.some.inj (hw'.symm.trans hskip.wave)
      exact absurd (htime'.symm.trans hskip.time) (Nat.ne_of_gt (htime w hw))
    exact fillsAfter_of_exec hr fun o => by rw [hexec, bystander_during hf.apart, writeProgress_during hwaits]

/-- Otherwise it may go on as the end of the timed wait. -/
theorem WriteRow.fillsAfter_or {c : Instr} (h : WriteRow s c) (hr : s.ring.reading = some r) (hcan : s.Canonical)
    (hpending : s.PendingAgrees) : FillsAfter s r c ∨ ∃ (v : State) (w : Wave),
      v = { s with coil := v.coil, engine.actual := v.engine.actual, engine.fault := v.engine.fault } ∧
      v.coil.wave = some w ∧ w.stage = .timedWait ∧ v.Canonical ∧ v.PendingAgrees ∧
      exec c s = exec .timedWaitEnd v ∧ exec c (during s none) = exec .timedWaitEnd (during v none) := by
  cases h with
  | plain f hf hexec => exact .inl (fillsAfter_of_bystander hr hf hexec)
  | looks w f hw hf hexec =>
    by_cases hskip : ∃ v, SkipsWait (f s) v
    · obtain ⟨v, hskip⟩ := hskip
      have hends : ∀ o, exec c (during s o) =
          exec .timedWaitEnd (during { f s with coil.wave := some { v with stage := .timedWait } } o) := fun o => by
        have hskip' : SkipsWait (during (f s) o) v := ⟨hskip.wave, hskip.time, hskip.written, hskip.latched⟩
        rw [hexec, bystander_during hf.apart, writeProgress_of_skipsWait hskip']
        exact (exec_timedWaitEnd_of_waiting (u := during (f s) o)).symm
      refine .inr ⟨{ f s with coil.wave := some { v with stage := .timedWait } }, { v with stage := .timedWait }, ?_, rfl,
        rfl, { hf.canonical hcan with }, ?_, ?_, hends none⟩
      · exact congrArg (fun u : State => { u with coil.wave := some { v with stage := .timedWait } }) hf.frame
      · exact Pending.pending_rewaved (hf.pending hpending) hskip.wave ((Refines.refl v).congr rfl rfl)
      · have hsome := hends (some r)
        rw [during_self hr] at hsome
        refine hsome.trans (congrArg _ (during_self ?_))
        exact (hf.apart.reading s).trans hr
    · exact .inl (fillsAfter_of_exec hr fun o => by
        rw [hexec, bystander_during hf.apart, writeProgress_during (not_exists.mp hskip)])

end

/-! ### Frames (R169, R181) -/

/-- A frame finds the READ finished. -/
theorem exec_finishRead {c : Instr} {ws : List Word} (hframe : Instr.arrivingWords c = some ws) (s : State) :
    exec c s = exec c s.finishRead := by
  have htwice : s.finishRead.finishRead = s.finishRead := finishRead_idle _ (finishRead_reading s)
  cases c with
  | resolutionComplete | trigEdge | qackHigh | guardTimeout | shiftComplete | writeEcho | senseEcho | noEcho | staleEcho
  | timedWaitEnd | senseIntervalEnd | senseDeadline | powerOn | rstnLow | rstnHigh | symbolLockLost | symbolLockReturn
  | linkLoss | resetEnd => cases hframe
  | _ =>
    simp only [exec, execStepCheck, execStepStage, execStepApply, execStepBadAction, execWriteRelayMap, execWriteClass,
      execWritePorts, execWriteSiteEnable, execWritePinMap, execWritePortMap, execWriteRouteDir, execWriteEntries,
      execWriteWear, execWriteConfig, execWrite, execRead, execReadNotices, execEnterRun, execEnterConfigure, execSetGate,
      execAbort, execResume, execRollback, execSafeOpen, execDiscardStaged, execAckAlert, execSoftReset,
      execControlBadOperation, execPoll, execFrameCrcFail, execShortFrame, execFrameNotForThisController,
      execFrameDuringReset, htwice]

/-- Settles O15: each event fills once or among its confirmations, and the next frame finds the READ finished. -/
theorem readsFillWhileEventsFall : Obligations.ReadsFillWhileEventsFall := by
  intro s r hr left idle finished fillsAfter fillsAmong
  have hfinished : s.finishRead = finished := finishRead_eq s r hr
  refine ⟨fun c hevent hwait hsense hwrite => fillsAfter_of_event hr hevent hwait hsense hwrite, fun hwait => ?wait,
    fun k echo made h => fillsAfter_senseEcho hr h, fun w hw hcan hpending => ⟨fun hstage => ?timed,
      fun k n echo made hx hecho => ?sensed⟩, fun k echo c hc => ?write, fun c ws hframe => ?frame,
    fun hqueue => ?idles, ?sent⟩
  case wait =>
    exact fillsAfter_of_idle hr fun o => exec_timedWaitEnd_of_unwaiting (s := during s o) hwait
  case timed =>
    rw [← latchedOf_timed_eq]
    exact fillsAmong_timedWaitEnd hr hcan hpending hw hstage
  case sensed =>
    rw [← matchingOf_eq]
    exact fillsAmong_senseEcho hr hcan hpending hw hx hecho made
  case write =>
    have hrow : WriteRow s c := by
      simp only [List.mem_cons, List.not_mem_nil, or_false] at hc
      obtain rfl | rfl := hc
      · exact writeRow_writeEcho s k echo
      · exact writeRow_noEcho s k
    exact ⟨hrow.fillsAfter hr, hrow.fillsAfter_or hr⟩
  case frame => rw [← hfinished, exec_finishRead hframe]
  case idles => simp only [step, hqueue, hfinished]
  case sent =>
    rw [← hfinished]
    exact finishRead_reading s

end Sys2Proof.ReadEchoes
end
